-- ==== Sys2Proof/Word.lean ====
section
/-! DEFINITION. Word.lean: the words of the machine and their plainest readings (R7, R22, R105). -/

namespace Sys2Proof

/-- An x register's 64-bit pattern (R105). -/
abbrev Word := BitVec 64

/-- One byte of memory (R7). -/
abbrev Byte := BitVec 8

/-- A register number of a control word (R29). -/
abbrev Reg := BitVec 5

/-- A lane value: a 32-bit or 64-bit lane form, held in 64 bits (R62, R69). -/
abbrev Lane := BitVec 64

end Sys2Proof
end

