-- ==== Sys2Proof/Syntax.lean ====
section
/-! DEFINITION. Syntax.lean: the instructions and events of the TZ-880, one constructor for each row of
spec/opcode_table.json. Rows with an encoding hold their operand fields as the control word holds them (R29 to
R32, R53); rows of the table that are events of the machine hold what the event carries. -/

namespace Sys2Proof

/-- One step of the part (R33, R42 and the event rows of the opcode table). -/
inductive Instr where
  /-- ADD (R107): wrapping sum. -/
  | add (d : Reg) (a : Reg) (b : Reg)
  /-- SUB (R107): wrapping difference. -/
  | sub (d : Reg) (a : Reg) (b : Reg)
  /-- MUL (R107): low product. -/
  | mul (d : Reg) (a : Reg) (b : Reg)
  /-- MULH (R107): high signed product. -/
  | mulh (d : Reg) (a : Reg) (b : Reg)
  /-- MULHU (R107): high unsigned product. -/
  | mulhu (d : Reg) (a : Reg) (b : Reg)
  /-- DIV (R108): signed quotient. -/
  | div (d : Reg) (a : Reg) (b : Reg)
  /-- DIVU (R108): natural quotient. -/
  | divu (d : Reg) (a : Reg) (b : Reg)
  /-- REM (R108): signed remainder. -/
  | rem (d : Reg) (a : Reg) (b : Reg)
  /-- REMU (R108): natural remainder. -/
  | remu (d : Reg) (a : Reg) (b : Reg)
  /-- AND (R107): bitwise AND. -/
  | and (d : Reg) (a : Reg) (b : Reg)
  /-- OR (R107): bitwise OR. -/
  | or (d : Reg) (a : Reg) (b : Reg)
  /-- XOR (R107): bitwise XOR. -/
  | xor (d : Reg) (a : Reg) (b : Reg)
  /-- ANDN (R107): A AND NOT B. -/
  | andn (d : Reg) (a : Reg) (b : Reg)
  /-- ORN (R107): A OR NOT B. -/
  | orn (d : Reg) (a : Reg) (b : Reg)
  /-- SLL (R107): shift left. -/
  | sll (d : Reg) (a : Reg) (b : Reg)
  /-- SRL (R107): logical shift right. -/
  | srl (d : Reg) (a : Reg) (b : Reg)
  /-- SRA (R107): arithmetic shift right. -/
  | sra (d : Reg) (a : Reg) (b : Reg)
  /-- ROR (R107): rotate right. -/
  | ror (d : Reg) (a : Reg) (b : Reg)
  /-- MIN (R107): signed minimum. -/
  | min (d : Reg) (a : Reg) (b : Reg)
  /-- MAX (R107): signed maximum. -/
  | max (d : Reg) (a : Reg) (b : Reg)
  /-- MINU (R107): natural minimum. -/
  | minu (d : Reg) (a : Reg) (b : Reg)
  /-- MAXU (R107): natural maximum. -/
  | maxu (d : Reg) (a : Reg) (b : Reg)
  /-- SLT (R107): set if less, signed. -/
  | slt (d : Reg) (a : Reg) (b : Reg)
  /-- SLTU (R107): set if less, natural. -/
  | sltu (d : Reg) (a : Reg) (b : Reg)
  /-- ADDI (R109): with the sign-extended imm16. -/
  | addi (d : Reg) (a : Reg) (i : BitVec 16)
  /-- ANDI (R109): with the sign-extended imm16. -/
  | andi (d : Reg) (a : Reg) (i : BitVec 16)
  /-- ORI (R109): with the sign-extended imm16. -/
  | ori (d : Reg) (a : Reg) (i : BitVec 16)
  /-- XORI (R109): with the sign-extended imm16. -/
  | xori (d : Reg) (a : Reg) (i : BitVec 16)
  /-- SLLI (R110): shift by an immediate count. -/
  | slli (d : Reg) (a : Reg) (k : BitVec 6)
  /-- SRLI (R110): shift by an immediate count. -/
  | srli (d : Reg) (a : Reg) (k : BitVec 6)
  /-- SRAI (R110): shift by an immediate count. -/
  | srai (d : Reg) (a : Reg) (k : BitVec 6)
  /-- SLTI (R111): set if less than the immediate, signed. -/
  | slti (d : Reg) (a : Reg) (i : BitVec 15)
  /-- SLTIU (R111): set if less than the immediate, natural. -/
  | sltiu (d : Reg) (a : Reg) (i : BitVec 15)
  /-- LUI (R112): imm16 into bits [31:16], sign-extended. -/
  | lui (d : Reg) (i : BitVec 16)
  /-- ADDPC (R112): PC plus imm16 shifted left 16. -/
  | addpc (d : Reg) (i : BitVec 16)
  /-- CLZ (R114): bit count. -/
  | clz (d : Reg) (a : Reg)
  /-- CTZ (R114): bit count. -/
  | ctz (d : Reg) (a : Reg)
  /-- POPC (R114): bit count. -/
  | popc (d : Reg) (a : Reg)
  /-- SEXT (R114): sign-extend bits [n:0]. -/
  | sext (d : Reg) (a : Reg) (n : Reg)
  /-- ZEXT (R114): zero-extend bits [n:0]. -/
  | zext (d : Reg) (a : Reg) (n : Reg)
  /-- BSWAP (R114): reverse the bytes. -/
  | bswap (d : Reg) (a : Reg)
  /-- LEA (R114): xa plus xb shifted left s, into xa. -/
  | lea (s : Reg) (a : Reg) (b : Reg)
  /-- INSH (R114): insert a bit field. -/
  | insh (d : Reg) (a : Reg) (b : Reg)
  /-- CSEL (R114): select on zeroness. -/
  | csel (d : Reg) (a : Reg) (b : Reg)
  /-- BEQ (R115): compare and branch. -/
  | beq (a : Reg) (b : Reg) (o : BitVec 16)
  /-- BNE (R115): compare and branch. -/
  | bne (a : Reg) (b : Reg) (o : BitVec 16)
  /-- BLT (R115): compare and branch. -/
  | blt (a : Reg) (b : Reg) (o : BitVec 16)
  /-- BGE (R115): compare and branch. -/
  | bge (a : Reg) (b : Reg) (o : BitVec 16)
  /-- BLTU (R115): compare and branch. -/
  | bltu (a : Reg) (b : Reg) (o : BitVec 16)
  /-- BGEU (R115): compare and branch. -/
  | bgeu (a : Reg) (b : Reg) (o : BitVec 16)
  /-- JAL (R116): jump and link. -/
  | jal (d : Reg) (o : BitVec 21)
  /-- JALR (R116): jump to a register and link. -/
  | jalr (d : Reg) (a : Reg) (i : BitVec 16)
  /-- JTAB (R117): guarded jump through a table. -/
  | jtab (d : Reg) (a : Reg) (b : Reg)
  /-- LD (R118): scalar load. -/
  | ld (d : Reg) (a : Reg) (i : BitVec 13) (s : BitVec 2) (n : BitVec 1)
  /-- ST (R118): scalar store. -/
  | st (d : Reg) (a : Reg) (i : BitVec 13) (s : BitVec 2)
  /-- LDX (R120): indexed load. -/
  | ldx (d : Reg) (a : Reg) (b : Reg) (n : BitVec 1) (s : BitVec 2)
  /-- STX (R120): indexed store. -/
  | stx (d : Reg) (a : Reg) (b : Reg) (s : BitVec 2)
  /-- PREF (R121): prefetch a line. -/
  | pref (a : Reg)
  /-- CSRRD (R125): read a CSR. -/
  | csrrd (d : Reg) (c : BitVec 12)
  /-- CSRWR (R125): write a CSR. -/
  | csrwr (d : Reg) (a : Reg) (c : BitVec 12)
  /-- CSRSET (R125): set bits of a CSR. -/
  | csrset (d : Reg) (a : Reg) (c : BitVec 12)
  /-- CSRCLR (R125): clear bits of a CSR. -/
  | csrclr (d : Reg) (a : Reg) (c : BitVec 12)
  /-- RAND (R127): entropy draw. -/
  | rand (d : Reg)
  /-- PARK (R93): park until woken. -/
  | park (d : Reg)
  /-- PARK_C (R97): park for a cycle count. -/
  | parkC (a : Reg)
  /-- WAKE (R94): wake a thread. -/
  | wake (d : Reg) (a : Reg) (b : Reg)
  /-- NAP (R96): light sleep. -/
  | nap
  /-- YIELD (R98): give up the slot. -/
  | yield
  /-- FENCE (R301): order the thread's two sides. -/
  | fence (k : BitVec 2)
  /-- CHUNKEND (R290): close the chunk. -/
  | chunkend
  /-- CHUNKLIM (R291): lower the chunk limit. -/
  | chunklim (d : Reg) (a : Reg)
  /-- WAITV (R306): park until a doubleword changes. -/
  | waitv (a : Reg) (b : Reg)
  /-- LDAQ (R305): acquire load; c is the scope. -/
  | ldaq (d : Reg) (a : Reg) (c : BitVec 2) (s : BitVec 2)
  /-- STRL (R304): release store; c is the scope. -/
  | strl (d : Reg) (a : Reg) (c : BitVec 2) (s : BitVec 2)
  /-- AMOADD (R308): atomic; p is placement (1 far), s is size. -/
  | amoadd (d : Reg) (a : Reg) (b : Reg) (p : BitVec 1) (s : BitVec 2)
  /-- AMOAND (R308): atomic; p is placement (1 far), s is size. -/
  | amoand (d : Reg) (a : Reg) (b : Reg) (p : BitVec 1) (s : BitVec 2)
  /-- AMOOR (R308): atomic; p is placement (1 far), s is size. -/
  | amoor (d : Reg) (a : Reg) (b : Reg) (p : BitVec 1) (s : BitVec 2)
  /-- AMOXOR (R308): atomic; p is placement (1 far), s is size. -/
  | amoxor (d : Reg) (a : Reg) (b : Reg) (p : BitVec 1) (s : BitVec 2)
  /-- AMOMIN (R308): atomic; p is placement (1 far), s is size. -/
  | amomin (d : Reg) (a : Reg) (b : Reg) (p : BitVec 1) (s : BitVec 2)
  /-- AMOMAX (R308): atomic; p is placement (1 far), s is size. -/
  | amomax (d : Reg) (a : Reg) (b : Reg) (p : BitVec 1) (s : BitVec 2)
  /-- AMOMINU (R308): atomic; p is placement (1 far), s is size. -/
  | amominu (d : Reg) (a : Reg) (b : Reg) (p : BitVec 1) (s : BitVec 2)
  /-- AMOMAXU (R308): atomic; p is placement (1 far), s is size. -/
  | amomaxu (d : Reg) (a : Reg) (b : Reg) (p : BitVec 1) (s : BitVec 2)
  /-- AMOSWAP (R308): atomic swap; q selects the pair form. -/
  | amoswap (d : Reg) (a : Reg) (b : Reg) (p : BitVec 1) (q : BitVec 1) (s : BitVec 2)
  /-- AMOCAS (R308): compare and swap; q selects the pair form. -/
  | amocas (d : Reg) (a : Reg) (b : Reg) (p : BitVec 1) (q : BitVec 1) (s : BitVec 2)
  /-- AMOFADD (R308): atomic F32 add. -/
  | amofadd (d : Reg) (a : Reg) (b : Reg) (p : BitVec 1)
  /-- STRIP (R328): strip-mine branch; off10 = o * 32 + p. -/
  | strip (d : Reg) (o : Reg) (b : Reg) (p : Reg)
  /-- BEV (R262): branch on an event flag. -/
  | bev (k : Reg) (c : Reg) (o : BitVec 16)
  /-- VSETL (R192): request a vector length. -/
  | vsetl (d : Reg) (a : Reg)
  /-- FORCE (R161): capture a register. -/
  | force (v : Reg)
  /-- VMAT (R161): make a register resident. -/
  | vmat (v : Reg)
  /-- VDROP (R161): drop a register. -/
  | vdrop (v : Reg)
  /-- VBCAST (R206): broadcast x. -/
  | vbcast (v : Reg) (a : Reg) (t : BitVec 4)
  /-- VGET (R207): read one element. -/
  | vget (v : Reg) (a : Reg) (b : Reg)
  /-- VINS (R207): insert one element. -/
  | vins (v : Reg) (a : Reg) (b : Reg)
  /-- VCONF (R208): window conflict masks. -/
  | vconf (v : Reg) (b : Reg)
  /-- VCOMPACT (R209): compact under a mask. -/
  | vcompact (v : Reg) (k : BitVec 3) (b : Reg)
  /-- MCNT (R209): count true bits. -/
  | mcnt (d : Reg) (k : BitVec 3)
  /-- MFIRST (R209): first true bit. -/
  | mfirst (d : Reg) (k : BitVec 3)
  /-- MLOG_LOGIC (R210): mask logic by truth table. -/
  | mlogLogic (k : BitVec 3) (a : BitVec 3) (t : BitVec 4) (b : BitVec 3)
  /-- MLOG_FROM_VECTOR (R210): mask names a vector value. -/
  | mlogFromVector (k : BitVec 3) (v : Reg)
  /-- MLOG_TO_VECTOR (R210): vector names a mask value. -/
  | mlogToVector (v : Reg) (a : BitVec 3)
  /-- VLD (R193): bind a unit stream. -/
  | vld (v : Reg) (a : Reg) (t : BitVec 4)
  /-- VLD_FF (R193): bind fault-only-first. -/
  | vldFf (v : Reg) (a : Reg) (t : BitVec 4)
  /-- VLD_M (R193): bind a mask stream. -/
  | vldM (k : BitVec 3) (a : Reg)
  /-- VLDS (R193): bind strided. -/
  | vlds (v : Reg) (a : Reg) (b : Reg) (t : BitVec 4)
  /-- VLDX (R193): bind indexed. -/
  | vldx (v : Reg) (a : Reg) (b : Reg) (t : BitVec 4)
  /-- VLDSEG (R193): bind segments. -/
  | vldseg (v : Reg) (a : Reg) (n : Reg) (t : BitVec 4)
  /-- VLDT (R193): bind by shape record. -/
  | vldt (v : Reg) (a : Reg) (b : Reg) (t : BitVec 4)
  /-- VST (R199): store a unit stream. -/
  | vst (v : Reg) (a : Reg) (k : BitVec 3) (t : BitVec 4)
  /-- VSTS (R199): store strided. -/
  | vsts (v : Reg) (a : Reg) (b : Reg) (k : BitVec 3) (t : BitVec 4)
  /-- VSTX (R199): store indexed. -/
  | vstx (v : Reg) (a : Reg) (b : Reg) (k : BitVec 3) (t : BitVec 4)
  /-- VSTSEG (R199): store segments. -/
  | vstseg (v : Reg) (a : Reg) (n : Reg) (k : BitVec 3) (t : BitVec 4)
  /-- VSTT (R199): store by shape record. -/
  | vstt (v : Reg) (a : Reg) (b : Reg) (k : BitVec 3) (t : BitVec 4)
  /-- VSCR_ADD (R201): scatter-reduce into TCM. -/
  | vscrAdd (v : Reg) (a : Reg) (b : Reg) (k : BitVec 3) (t : BitVec 4)
  /-- VSCR_MIN (R201): scatter-reduce into TCM. -/
  | vscrMin (v : Reg) (a : Reg) (b : Reg) (k : BitVec 3) (t : BitVec 4)
  /-- VSCR_MAX (R201): scatter-reduce into TCM. -/
  | vscrMax (v : Reg) (a : Reg) (b : Reg) (k : BitVec 3) (t : BitVec 4)
  /-- VSCR_AND (R201): scatter-reduce into TCM. -/
  | vscrAnd (v : Reg) (a : Reg) (b : Reg) (k : BitVec 3) (t : BitVec 4)
  /-- VSCR_OR (R201): scatter-reduce into TCM. -/
  | vscrOr (v : Reg) (a : Reg) (b : Reg) (k : BitVec 3) (t : BitVec 4)
  /-- VSCR_XOR (R201): scatter-reduce into TCM. -/
  | vscrXor (v : Reg) (a : Reg) (b : Reg) (k : BitVec 3) (t : BitVec 4)
  /-- VRED_ADD (R203): reduce to a scalar. -/
  | vredAdd (v : Reg) (d : Reg) (k : BitVec 3) (t : BitVec 4)
  /-- VRED_MIN (R203): reduce to a scalar. -/
  | vredMin (v : Reg) (d : Reg) (k : BitVec 3) (t : BitVec 4)
  /-- VRED_MAX (R203): reduce to a scalar. -/
  | vredMax (v : Reg) (d : Reg) (k : BitVec 3) (t : BitVec 4)
  /-- VRED_AND (R203): reduce to a scalar. -/
  | vredAnd (v : Reg) (d : Reg) (k : BitVec 3) (t : BitVec 4)
  /-- VRED_OR (R203): reduce to a scalar. -/
  | vredOr (v : Reg) (d : Reg) (k : BitVec 3) (t : BitVec 4)
  /-- VRED_XOR (R203): reduce to a scalar. -/
  | vredXor (v : Reg) (d : Reg) (k : BitVec 3) (t : BitVec 4)
  /-- VREDI_MIN (R204): minimum with index. -/
  | vrediMin (v : Reg) (d : Reg) (k : BitVec 3) (t : BitVec 4)
  /-- VREDI_MAX (R204): maximum with index. -/
  | vrediMax (v : Reg) (d : Reg) (k : BitVec 3) (t : BitVec 4)
  /-- WEAVE (R144): append a block. -/
  | weave (o : BitVec 21)
  /-- MLDW (R231): load a weight tile. -/
  | mldw (s : BitVec 1) (a : Reg) (t : BitVec 4)
  /-- MROW (R233): row step; n tile, s slot, u second type, q scale. -/
  | mrow (v : Reg) (a : Reg) (n : BitVec 2) (s : BitVec 1) (u : BitVec 2) (q : BitVec 3) (t : BitVec 4)
  /-- MROW_ACC (R233): row step; n tile, s slot, u second type, q scale. -/
  | mrowAcc (v : Reg) (a : Reg) (n : BitVec 2) (s : BitVec 1) (u : BitVec 2) (q : BitVec 3) (t : BitVec 4)
  /-- MSLIDE (R236): row step; n tile, s slot, u second type, q scale. -/
  | mslide (v : Reg) (a : Reg) (n : BitVec 2) (s : BitVec 1) (u : BitVec 2) (q : BitVec 3) (t : BitVec 4)
  /-- MSLIDE_ACC (R236): row step; n tile, s slot, u second type, q scale. -/
  | mslideAcc (v : Reg) (a : Reg) (n : BitVec 2) (s : BitVec 1) (u : BitVec 2) (q : BitVec 3) (t : BitVec 4)
  /-- MZERO (R238): clear tile rows. -/
  | mzero (n : BitVec 2) (a : Reg) (b : Reg)
  /-- MREAD (R239): read a tile row; s saturates, r rounds. -/
  | mread (v : Reg) (a : Reg) (n : BitVec 2) (s : BitVec 1) (q : BitVec 2) (r : BitVec 3) (t : BitVec 4)
  /-- MSCALE (R240): set a scale register. -/
  | mscale (q : BitVec 3) (a : Reg)
  /-- ACOPY (R257): linear engine copy. -/
  | acopy (d : Reg) (a : Reg) (b : Reg) (k : BitVec 4)
  /-- ACOPYT (R258): shaped engine copy. -/
  | acopyt (d : Reg) (a : Reg) (b : Reg) (k : BitVec 4)
  /-- EVWAIT (R260): wait on an event flag. -/
  | evwait (d : Reg) (k : BitVec 4)
  /-- EVCLR (R261): clear an event flag. -/
  | evclr (d : Reg) (k : BitVec 4)
  /-- UIRET (R268): leave a user interrupt. -/
  | uiret
  /-- ICINV (R269): invalidate fetched code. -/
  | icinv (a : Reg) (b : Reg)
  /-- PANPOST (R316): post a panel. -/
  | panpost (d : Reg) (a : Reg) (b : Reg)
  /-- PANGET (R320): take a grant. -/
  | panget (d : Reg) (a : Reg) (b : Reg)
  /-- PANDONE (R322): retire a grant. -/
  | pandone (d : Reg)
  /-- WMPUB (R329): publish a watermark. -/
  | wmpub (a : Reg) (b : Reg)
  /-- DEPSET (R324): set a counter. -/
  | depset (a : Reg) (b : Reg)
  /-- DEPDEC (R324): decrement a counter. -/
  | depdec (a : Reg)
  /-- QSEND (R325): enqueue an item. -/
  | qsend (d : Reg) (a : Reg) (b : Reg)
  /-- QSEND_NB (R325): enqueue without waiting. -/
  | qsendNb (d : Reg) (a : Reg) (b : Reg)
  /-- QSEND_A (R325): enqueue and wait for acceptance. -/
  | qsendA (d : Reg) (a : Reg) (b : Reg)
  /-- QTAKE (R326): dequeue an item. -/
  | qtake (d : Reg) (a : Reg) (b : Reg)
  /-- GJOIN (R336): join a group. -/
  | gjoin (d : Reg) (a : Reg)
  /-- GLEAVE (R336): leave a group. -/
  | gleave (d : Reg) (a : Reg)
  /-- BARA (R337): arrive at a barrier. -/
  | bara (d : Reg) (a : Reg)
  /-- BARW (R338): wait by distance. -/
  | barw (d : Reg) (a : Reg) (n : Reg)
  /-- BARINFO (R339): straggler record. -/
  | barinfo (d : Reg) (a : Reg) (b : Reg)
  /-- RLD (R369): remote load. -/
  | rld (d : Reg) (a : Reg) (s : BitVec 2)
  /-- RST (R369): remote store. -/
  | rst (d : Reg) (a : Reg) (s : BitVec 2)
  /-- RAMO (R369): remote atomic. -/
  | ramo (d : Reg) (a : Reg) (b : Reg) (o : BitVec 3)
  /-- RRED (R370): remote reduce store. -/
  | rred (v : Reg) (a : Reg) (q : BitVec 3) (k : BitVec 3)
  /-- ECALL (R396): system instruction. -/
  | ecall
  /-- HCALL (R396): system instruction. -/
  | hcall
  /-- TRAP (R396): system instruction. -/
  | trap (a : Reg)
  /-- IRET (R397): system instruction. -/
  | iret
  /-- CTXSAVE (R398): system instruction. -/
  | ctxsave
  /-- CTXLOAD (R399): system instruction. -/
  | ctxload (a : Reg)
  /-- HALT (R400): system instruction. -/
  | halt (a : Reg)
  /-- BRK (R396): system instruction. -/
  | brk
  /-- TLBINV (R360): invalidate translations. -/
  | tlbinv (a : Reg) (b : Reg)
  /-- FRAMEGIVE (R359): move a frame. -/
  | framegive (d : Reg) (a : Reg) (b : Reg)
  /-- KEYLOAD (R358): fill a key slot. -/
  | keyload (d : Reg) (a : Reg) (b : Reg)
  /-- TMARK (R418): trace marker. -/
  | tmark (a : Reg) (b : Reg)
  /-- MODULE_RESET (R426): Module reset runs measured boot, loads the speed table and releases steward 0. -/
  | moduleReset
  /-- MEAS_EXTEND (R427): A boot stage is extended into the measurement register through the extend port. -/
  | measExtend (image : List Byte)
  /-- CHUNK_COMMIT (R281): A closed chunk takes its slice grants, is logged, broadcasts its write signature and writes its entries. -/
  | chunkCommit (agent : Nat)
  /-- CHUNK_RESERVATION (R287): After 8 consecutive squashes an agent takes and holds the grants of its footprint before re-executing. -/
  | chunkReservation (agent : Nat)
  /-- PASS (R148): After the forcing chunk commits, a shuttle pass runs as its own agent over the pending graph. -/
  | pass (tid : Nat)
  /-- CAPTURE_PASS (R149): A pass captures pending registers whose leaf the thread is about to overwrite. -/
  | capturePass (tid : Nat)
  /-- ELEMENT_GROUP_COMPLETION (R217): A cluster's element group completes into the pass's open chunk and its flags enter FSTAT. -/
  | elementGroupCompletion (tid : Nat)
  /-- TRAP_ENTRY (R387): After the open chunk commits, trap state is recorded and control passes to S or H, or a dump starts. -/
  | trapEntry (tid cause : Nat) (addr : Word)
  /-- USER_INTERRUPT (R267): An enabled DONE flag vectors the thread to its user interrupt handler. -/
  | userInterrupt (tid : Nat)
  /-- PRE_EMPTION (R390): A pending pre-emption request is taken at the next accepting boundary. -/
  | preEmption (tid : Nat)
  /-- WAKE_DELIVERY (R94): A wake message arrives at its target and sets the token or resumes a parked or napping thread. -/
  | wakeDelivery (src dst : Nat)
  /-- PARK_C_EXPIRY (R97): A PARK.C count runs out and the thread may issue again. -/
  | parkCExpiry (tid : Nat)
  /-- YIELD_EXPIRY (R98): Sixteen cycles after YIELD the thread becomes ready again. -/
  | yieldExpiry (tid : Nat)
  /-- WAITV_WAKE (R306): A commit writing the watched line makes a stalled WAITV re-execute. -/
  | waitvWake (tid : Nat)
  /-- BARW_RELEASE (R338): A barrier release reaches a stalled BARW, which completes. -/
  | barwRelease (tid : Nat)
  /-- WATERMARK_WAIT_END (R328): A watermark slot reaches the bound and a stalled STRIP proceeds. -/
  | watermarkWaitEnd (tid : Nat)
  /-- PANGET_REMOTE_WAIT (R321): After 1,024 cycles without a local panel, PANGET takes a grant from a remote-homed panel. -/
  | pangetRemoteWait (tid : Nat)
  /-- RAND_TIMEOUT (R127): No healthy entropy within 1 ms makes RAND trap as detected hardware fault. -/
  | randTimeout (tid : Nat)
  /-- POWER_GATING (R99): After 4,096 idle cycles a compute core commits to power gating. -/
  | powerGating (core : Nat)
  /-- GATING_EXIT (R99): A gated core resumes on a wake, interrupt or completion, applying any pending step. -/
  | gatingExit (core : Nat)
  /-- FREQUENCY_STEP (R134): The governor stops a core's clock and begins a relock to a new frequency. -/
  | frequencyStep (core mhz : Nat)
  /-- RELOCK_END (R135): A relock ends after 200 ticks; counters and FCUR are updated, queued messages and signatures applied. -/
  | relockEnd (core : Nat)
  /-- TEMPERATURE_READING (R429): A temperature sensor is read every 10 µs and the governor acts on TWARN and TCRIT. -/
  | temperatureReading (core degC : Nat)
  /-- POWER_MEASUREMENT (R429): Module power is measured every 100 µs and the fastest core is lowered above PLIM. -/
  | powerMeasurement (watts : Nat)
  /-- TCRIT_TIMEOUT (R429): A core still above TCRIT plus 5 °C after 10 ms causes a module fault. -/
  | tcritTimeout (core : Nat)
  /-- VMIN_TIMEOUT (R429): A rail 5 % below VMIN for 50 µs causes a module fault. -/
  | vminTimeout (rail : Nat)
  /-- PROCESS_MONITOR (R430): Every 100 ms a core's process monitor may raise DEGR and lower its CAP. -/
  | processMonitor (core degr : Nat)
  /-- WATCHDOG_EXPIRY (R405): A unit that makes no progress for 250 µs is detected as faulty. -/
  | watchdogExpiry (cls inst : Nat)
  /-- DUMP (R403): The dump engine writes a thread's dump record under its translation. -/
  | dump (tid : Nat)
  /-- ENGINE_OPERATION (R253): After its issuing chunk commits, an engine operation copies in engine chunks. -/
  | engineOperation (tid k : Nat)
  /-- ENGINE_COMPLETION (R259): After its last engine chunk commits, the operation sets DONE and its status word. -/
  | engineCompletion (tid k : Nat)
  /-- TILE_LOAD_COMPLETION (R231): The streamed body of an MLDW finishes loading into its slot. -/
  | tileLoadCompletion (core slot : Nat)
  /-- BARRIER_ARRIVAL (R337): The barrier unit accepts and stamps an arrival and recomputes CP. -/
  | barrierArrival (tid : Nat)
  /-- RLD_REQUEST (R371): A remote load request is performed at the target as one chunk. -/
  | rldRequest (smod svf : Nat) (offset : Word) (size : Nat)
  /-- RST_PACKET (R371): A remote store packet is performed at the target and acknowledged. -/
  | rstPacket (smod svf : Nat) (offset : Word) (size : Nat) (data : Word)
  /-- RAMO_REQUEST (R371): A remote atomic is performed at the target as one chunk. -/
  | ramoRequest (smod svf : Nat) (offset : Word) (op : Nat) (operand expected : Word)
  /-- RRED_PACKET (R370): A reduce-store packet updates active elements at the target after checking every page. -/
  | rredPacket (smod svf : Nat) (offset : Word) (ty : Nat) (scale : BitVec 32) (mask : BitVec 16) (data : List (BitVec 32))
  /-- REMOTE_RESPONSE (R369): A response to RLD or RAMO returns and the stalled thread continues. -/
  | remoteResponse (tid cause : Nat) (value : Word)
  /-- REMOTE_ACKNOWLEDGEMENT (R371): An acknowledgement of an RST or RRED packet returns to the sender. -/
  | remoteAcknowledgement (tid cause : Nat) (addr : Word)
  /-- REMOTE_TIMEOUT (R372): No response within 1 ms traps or sends a kind 9 record. -/
  | remoteTimeout (tid : Nat) (addr : Word)
  /-- REMOTE_ITEM (R325): A VC2 item arrives at a target queue in a reserved place. -/
  | remoteItem (smod svf queue : Nat) (lo hi : Word)
  /-- ITEM_ACCEPTANCE (R325): The target's answer to a QSEND.A returns and the sender completes. -/
  | itemAcceptance (tid : Nat) (accepted : Bool)
  /-- ABORT_NOTICE (R374): A collective abort notice sets the abort word, sends a kind 10 record and frees the entry. -/
  | abortNotice (smod ident : Nat)
  /-- RESET_NOTICE (R375): A VF reset notice releases that VF's reservations at this module. -/
  | resetNotice (smod svf : Nat)
  /-- HOST_WRITE (R377): A host write invalidating a held line is performed as a one-line chunk. -/
  | hostWrite (vf : Nat) (pa : Nat) (data : List Byte)
  /-- CXL_MEM_ACCESS (R377): A host CXL.mem access to an exposed frame is performed as a chunk. -/
  | cxlMemAccess (write : Bool) (pa : Nat) (data : List Byte)
  /-- DBHI (R380): A write sends a doorbell item to the queue that DBQ names. -/
  | dbhi (vf : Nat) (value : Word)
  /-- FUNCTION_LEVEL_RESET (R375): A PCIe function-level reset resets the virtual function. -/
  | functionLevelReset (vf : Nat)
  /-- VFRESET (R375): A write of 1 resets a virtual function's threads, queues, objects and collectives. -/
  | vfreset (value : Word)
  /-- PREEMPT (R389): A write requests pre-emption of a thread on behalf of H. -/
  | preempt (steward : Nat) (value : Word)
  /-- VF_PREEMPT (R389): A write to the VF page requests pre-emption of a thread on behalf of S. -/
  | vfPreempt (vf : Nat) (value : Word)
  /-- SRAMSIZE (R249): A write resizes a die's shared-SRAM window at its top. -/
  | sramsize (die : Nat) (value : Word)
  /-- FLIM (R429): A write sets a core's frequency limit and steps the core toward it. -/
  | flim (core : Nat) (value : Word)
  /-- OWNER_TABLE_WRITE (R381): A change of a block's owner zeroes its counters and slots and frees its groups. -/
  | ownerTableWrite (off : Nat) (value : Byte)
  /-- FSTAT_ACCESS (R83): An access to FSTAT first waits for earlier passes and matrix instructions. -/
  | fstatAccess (tid : Nat)
  /-- CAP_AREA_WRITE (R152): A write to CAPBASE or CAPSIZE waits for no pass in flight and moves new regions. -/
  | capAreaWrite (tid : Nat) (size : Bool) (value : Word)
  /-- VRS_WRITE (R219): A write to VRS01 or VRS23 waits until no pass is in flight. -/
  | vrsWrite (tid : Nat) (high : Bool) (value : Word)
  /-- CHKLIM_WRITE (R292): A write sets LIM and sets EFF from the next chunk. -/
  | chklimWrite (tid : Nat) (value : Word)
  /-- EVF_WRITE (R261): Writing 1s to EVF clears DONE and FAULT bits. -/
  | evfWrite (tid : Nat) (value : Word)
  /-- CTXBASE_WRITE (R394): A write to CTXBASE sets every register dirty bit. -/
  | ctxbaseWrite (tid : Nat) (value : Word)
  /-- LANE_COUNTER_READ (R407): A read of a lane-cycle counter waits until every pass chunk has committed. -/
  | laneCounterRead (tid : Nat) (index : Nat)
  /-- TRACE_SAMPLE (R415): Every SAMPLE × 1,024 cycles a SAMPLE record is written to the trace ring. -/
  | traceSample (tid : Nat)
  /-- REGISTER_WRITE (R4): A write to a register with no behaviour of its own follows its Access column. -/
  | registerWrite (pa : Nat) (value : Word)
  /-- MATRIX_STEP_COMPLETION (R242): An MROW or MSLIDE step finishes in the array 24 or more cycles after issue, writes its row and flags, and checks its checksum, trapping at the next boundary on a mismatch. -/
  | matrixStepCompletion (core : Nat) (mismatch : Bool)
  /-- RESERVATION_RETURN (R325): A target module returns a reserved place to its sender, or reports the reservation reclaimed, so that a stalled QSEND proceeds or completes with status 2. -/
  | reservationReturn (queue : Nat) (reclaimed : Bool)
  /-- ENTROPY_HEALTH_CHANGE (R127): The security block's entropy source starts or stops failing its health tests, and on recovery a healthy value reaches a stalled RAND. -/
  | entropyHealthChange (healthy : Bool) (value : Word)
  deriving DecidableEq, Repr

end Sys2Proof
end

