-- ==== Sys2Proof/WellFormed.lean ====
section
/-! DEFINITION. WellFormed.lean: the operand values that the definitions of the instructions assign (R32, R45, R60,
R61); a word that holds any other value is illegal (R34). -/

namespace Sys2Proof

/-- Integer types S8 to N64 (R39). -/
def isIntCode (t : BitVec 4) : Bool := decide (t.toNat < 8)

/-- The types of strided, indexed, segment and shape streams: every type but E2M1 and mask (R193, R199). -/
def isStrideCode (t : BitVec 4) : Bool := decide (t.toNat ≤ 12)

/-- The types of VRED.ADD, MIN, MAX and VREDI (R202). -/
def isReduceCode (t : BitVec 4) : Bool := decide (t.toNat ≤ 12) || t == 14

/-- The types of the logic reductions (R202). -/
def isLogicCode (t : BitVec 4) : Bool := isIntCode t || t == 14

/-- The operating types of the matrix array: E4M3, E5M2, S8, N8, BF16 (R230). -/
def isTileCode (t : BitVec 4) : Bool := t == 11 || t == 12 || t == 0 || t == 4 || t == 9

/-- The types that MREAD delivers (R230). -/
def isReadCode (t : BitVec 4) : Bool := t.toNat == 8 || t == 9 || t == 10 || t == 11 || t == 12 ||
  t == 0 || t == 1 || t == 2 || t == 4 || t == 5 || t == 6

/-- The rounding selections of MREAD for its type (R230). -/
def isReadRound (t : BitVec 4) (r : BitVec 3) : Bool :=
  if isIntCode t then decide (r.toNat < 4) || r == 7 else decide (r.toNat < 5) || r == 7

/-- The count and register range of a segment form (R193, R199). -/
def segOk (v n : Reg) : Bool := decide (2 ≤ n.toNat) && decide (n.toNat ≤ 8) && decide (v.toNat + n.toNat ≤ 32)

/-- The operands of MROW and MSLIDE (R230). -/
def rowOk (u : BitVec 2) (q : BitVec 3) (t : BitVec 4) : Bool :=
  isTileCode t && (u == 0 || (u == 1 && !(t == 9))) && (!isIntCode t || q == 0)

/-- The pair forms of AMOSWAP and AMOCAS (R307). -/
def pairOk (d b : Reg) (q : BitVec 1) (s : BitVec 2) : Bool :=
  decide (2 ≤ s.toNat) && (q == 0 || (s == 3 && decide (d.toNat % 2 = 0) && decide (b.toNat % 2 = 0)))

/-- The offset and slot of STRIP: the wait-only form has no offset and a slot, the branch form an offset (R328). -/
def stripOk (d o b p : Reg) : Bool :=
  if d == 0 then o == 0 && p == 0 && !(b == 0) else !(o == 0 && p == 0)

/-- The operand values that an instruction's definition assigns. -/
def Instr.wf : Instr → Bool
  | .ld _ _ _ s n => !(s == 3 && n == 1)
  | .ldx _ _ _ n s => !(s == 3 && n == 1)
  | .ldaq _ _ c _ => !(c == 3)
  | .strl _ _ c _ => !(c == 3)
  | .amoadd _ _ _ _ s => decide (2 ≤ s.toNat)
  | .amoand _ _ _ _ s => decide (2 ≤ s.toNat)
  | .amoor _ _ _ _ s => decide (2 ≤ s.toNat)
  | .amoxor _ _ _ _ s => decide (2 ≤ s.toNat)
  | .amomin _ _ _ _ s => decide (2 ≤ s.toNat)
  | .amomax _ _ _ _ s => decide (2 ≤ s.toNat)
  | .amominu _ _ _ _ s => decide (2 ≤ s.toNat)
  | .amomaxu _ _ _ _ s => decide (2 ≤ s.toNat)
  | .amoswap d _ b _ q s => pairOk d b q s
  | .amocas d _ b _ q s => pairOk d b q s
  | .strip d o b p => stripOk d o b p
  | .bev k c _ => decide (k.toNat < 16) && decide (c.toNat < 4)
  | .vbcast _ _ t => isIntCode t || t == 8 || t == 14
  | .mlogLogic k _ _ _ => !(k == 0)
  | .mlogFromVector k _ => !(k == 0)
  | .mlogToVector _ a => !(a == 0)
  | .vld _ _ t => !(t == 15)
  | .vldFf _ _ t => !(t == 15) && !(t == 14)
  | .vldM k _ => !(k == 0)
  | .vlds _ _ _ t => isStrideCode t
  | .vldx _ _ _ t => isStrideCode t
  | .vldseg v _ n t => isStrideCode t && segOk v n
  | .vldt _ _ _ t => isStrideCode t
  | .vst _ _ _ t => !(t == 15)
  | .vsts _ _ _ _ t => isStrideCode t
  | .vstx _ _ _ _ t => isStrideCode t
  | .vstseg v _ n _ t => isStrideCode t && segOk v n
  | .vstt _ _ _ _ t => isStrideCode t
  | .vscrAdd _ _ _ _ t => isIntCode t || t == 8
  | .vscrMin _ _ _ _ t => isIntCode t || t == 8
  | .vscrMax _ _ _ _ t => isIntCode t || t == 8
  | .vscrAnd _ _ _ _ t => isIntCode t
  | .vscrOr _ _ _ _ t => isIntCode t
  | .vscrXor _ _ _ _ t => isIntCode t
  | .vredAdd _ _ _ t => isReduceCode t
  | .vredMin _ _ _ t => isReduceCode t
  | .vredMax _ _ _ t => isReduceCode t
  | .vredAnd _ _ _ t => isLogicCode t
  | .vredOr _ _ _ t => isLogicCode t
  | .vredXor _ _ _ t => isLogicCode t
  | .vrediMin _ d _ t => isReduceCode t && decide (1 ≤ d.toNat) && decide (d.toNat ≤ 30)
  | .vrediMax _ d _ t => isReduceCode t && decide (1 ≤ d.toNat) && decide (d.toNat ≤ 30)
  | .mldw _ _ t => isTileCode t
  | .mrow _ _ _ _ u q t => rowOk u q t
  | .mrowAcc _ _ _ _ u q t => rowOk u q t
  | .mslide _ _ _ _ u q t => rowOk u q t
  | .mslideAcc _ _ _ _ u q t => rowOk u q t
  | .mread _ _ _ _ _ r t => isReadCode t && isReadRound t r
  | .panget d _ _ => decide (1 ≤ d.toNat) && decide (d.toNat ≤ 28)
  | .pandone d => decide (1 ≤ d.toNat) && decide (d.toNat ≤ 28)
  | .qsend _ _ b => decide (b.toNat ≤ 30)
  | .qsendNb _ _ b => decide (b.toNat ≤ 30)
  | .qsendA _ _ b => decide (b.toNat ≤ 30)
  | .qtake d _ _ => decide (1 ≤ d.toNat) && decide (d.toNat ≤ 30)
  | _ => true

end Sys2Proof
end

