-- ==== Sys2Proof/Decode.lean ====
section
/-! DEFINITION. Decode.lean: control words to instructions (R29 to R34, R53 to R61) and back. A control word is a
natural number below 2^32; a field is a quotient and a remainder, so that each field is read at the place that the
spec's encoding table gives it. -/

namespace Sys2Proof

/-- Why a word is no instruction (R34). -/
inductive Reject where
  /-- The major is 0x00 or unassigned (R33). -/
  | unassignedMajor
  /-- No instruction of the major has this selector with these unused fields zero (R32, R53). -/
  | unassignedSelector
  /-- A used field holds a value that the definition does not assign (R32, R61). -/
  | badField
  deriving DecidableEq, Repr

/-- The rows of the majors 0x01. -/
def decodeOp (w : Nat) : Option Instr :=
  if w % 2048 = 0 then some (.add (.ofNat 5 (w / 2097152 % 32)) (.ofNat 5 (w / 65536 % 32)) (.ofNat 5 (w / 2048 % 32))) else
  if w % 2048 = 32 then some (.sub (.ofNat 5 (w / 2097152 % 32)) (.ofNat 5 (w / 65536 % 32)) (.ofNat 5 (w / 2048 % 32))) else
  if w % 2048 = 64 then some (.mul (.ofNat 5 (w / 2097152 % 32)) (.ofNat 5 (w / 65536 % 32)) (.ofNat 5 (w / 2048 % 32))) else
  if w % 2048 = 96 then some (.mulh (.ofNat 5 (w / 2097152 % 32)) (.ofNat 5 (w / 65536 % 32)) (.ofNat 5 (w / 2048 % 32))) else
  if w % 2048 = 128 then some (.mulhu (.ofNat 5 (w / 2097152 % 32)) (.ofNat 5 (w / 65536 % 32)) (.ofNat 5 (w / 2048 % 32))) else
  if w % 2048 = 160 then some (.div (.ofNat 5 (w / 2097152 % 32)) (.ofNat 5 (w / 65536 % 32)) (.ofNat 5 (w / 2048 % 32))) else
  if w % 2048 = 192 then some (.divu (.ofNat 5 (w / 2097152 % 32)) (.ofNat 5 (w / 65536 % 32)) (.ofNat 5 (w / 2048 % 32))) else
  if w % 2048 = 224 then some (.rem (.ofNat 5 (w / 2097152 % 32)) (.ofNat 5 (w / 65536 % 32)) (.ofNat 5 (w / 2048 % 32))) else
  if w % 2048 = 256 then some (.remu (.ofNat 5 (w / 2097152 % 32)) (.ofNat 5 (w / 65536 % 32)) (.ofNat 5 (w / 2048 % 32))) else
  if w % 2048 = 288 then some (.and (.ofNat 5 (w / 2097152 % 32)) (.ofNat 5 (w / 65536 % 32)) (.ofNat 5 (w / 2048 % 32))) else
  if w % 2048 = 320 then some (.or (.ofNat 5 (w / 2097152 % 32)) (.ofNat 5 (w / 65536 % 32)) (.ofNat 5 (w / 2048 % 32))) else
  if w % 2048 = 352 then some (.xor (.ofNat 5 (w / 2097152 % 32)) (.ofNat 5 (w / 65536 % 32)) (.ofNat 5 (w / 2048 % 32))) else
  if w % 2048 = 384 then some (.andn (.ofNat 5 (w / 2097152 % 32)) (.ofNat 5 (w / 65536 % 32)) (.ofNat 5 (w / 2048 % 32))) else
  if w % 2048 = 416 then some (.orn (.ofNat 5 (w / 2097152 % 32)) (.ofNat 5 (w / 65536 % 32)) (.ofNat 5 (w / 2048 % 32))) else
  if w % 2048 = 448 then some (.sll (.ofNat 5 (w / 2097152 % 32)) (.ofNat 5 (w / 65536 % 32)) (.ofNat 5 (w / 2048 % 32))) else
  if w % 2048 = 480 then some (.srl (.ofNat 5 (w / 2097152 % 32)) (.ofNat 5 (w / 65536 % 32)) (.ofNat 5 (w / 2048 % 32))) else
  if w % 2048 = 512 then some (.sra (.ofNat 5 (w / 2097152 % 32)) (.ofNat 5 (w / 65536 % 32)) (.ofNat 5 (w / 2048 % 32))) else
  if w % 2048 = 544 then some (.ror (.ofNat 5 (w / 2097152 % 32)) (.ofNat 5 (w / 65536 % 32)) (.ofNat 5 (w / 2048 % 32))) else
  if w % 2048 = 576 then some (.min (.ofNat 5 (w / 2097152 % 32)) (.ofNat 5 (w / 65536 % 32)) (.ofNat 5 (w / 2048 % 32))) else
  if w % 2048 = 608 then some (.max (.ofNat 5 (w / 2097152 % 32)) (.ofNat 5 (w / 65536 % 32)) (.ofNat 5 (w / 2048 % 32))) else
  if w % 2048 = 640 then some (.minu (.ofNat 5 (w / 2097152 % 32)) (.ofNat 5 (w / 65536 % 32)) (.ofNat 5 (w / 2048 % 32))) else
  if w % 2048 = 672 then some (.maxu (.ofNat 5 (w / 2097152 % 32)) (.ofNat 5 (w / 65536 % 32)) (.ofNat 5 (w / 2048 % 32))) else
  if w % 2048 = 704 then some (.slt (.ofNat 5 (w / 2097152 % 32)) (.ofNat 5 (w / 65536 % 32)) (.ofNat 5 (w / 2048 % 32))) else
  if w % 2048 = 736 then some (.sltu (.ofNat 5 (w / 2097152 % 32)) (.ofNat 5 (w / 65536 % 32)) (.ofNat 5 (w / 2048 % 32))) else
  none

/-- The rows of the majors 0x02, 0x03, 0x04, 0x05, 0x06, 0x07, 0x08, 0x09. -/
def decodeImm (w : Nat) : Option Instr :=
  if w / 67108864 = 2 then some (.addi (.ofNat 5 (w / 2097152 % 32)) (.ofNat 5 (w / 65536 % 32)) (.ofNat 16 (w % 65536))) else
  if w / 67108864 = 3 then some (.andi (.ofNat 5 (w / 2097152 % 32)) (.ofNat 5 (w / 65536 % 32)) (.ofNat 16 (w % 65536))) else
  if w / 67108864 = 4 then some (.ori (.ofNat 5 (w / 2097152 % 32)) (.ofNat 5 (w / 65536 % 32)) (.ofNat 16 (w % 65536))) else
  if w / 67108864 = 5 then some (.xori (.ofNat 5 (w / 2097152 % 32)) (.ofNat 5 (w / 65536 % 32)) (.ofNat 16 (w % 65536))) else
  if w / 67108864 = 6 ∧ w / 64 % 1024 = 0 then some (.slli (.ofNat 5 (w / 2097152 % 32)) (.ofNat 5 (w / 65536 % 32)) (.ofNat 6 (w % 64))) else
  if w / 67108864 = 6 ∧ w / 64 % 1024 = 256 then some (.srli (.ofNat 5 (w / 2097152 % 32)) (.ofNat 5 (w / 65536 % 32)) (.ofNat 6 (w % 64))) else
  if w / 67108864 = 6 ∧ w / 64 % 1024 = 512 then some (.srai (.ofNat 5 (w / 2097152 % 32)) (.ofNat 5 (w / 65536 % 32)) (.ofNat 6 (w % 64))) else
  if w / 67108864 = 7 ∧ w / 32768 % 2 = 0 then some (.slti (.ofNat 5 (w / 2097152 % 32)) (.ofNat 5 (w / 65536 % 32)) (.ofNat 15 (w % 32768))) else
  if w / 67108864 = 7 ∧ w / 32768 % 2 = 1 then some (.sltiu (.ofNat 5 (w / 2097152 % 32)) (.ofNat 5 (w / 65536 % 32)) (.ofNat 15 (w % 32768))) else
  if w / 67108864 = 8 ∧ w / 65536 % 32 = 0 then some (.lui (.ofNat 5 (w / 2097152 % 32)) (.ofNat 16 (w % 65536))) else
  if w / 67108864 = 9 ∧ w / 65536 % 32 = 0 then some (.addpc (.ofNat 5 (w / 2097152 % 32)) (.ofNat 16 (w % 65536))) else
  none

/-- The rows of the majors 0x0A. -/
def decodeBit (w : Nat) : Option Instr :=
  if w % 65536 = 0 then some (.clz (.ofNat 5 (w / 2097152 % 32)) (.ofNat 5 (w / 65536 % 32))) else
  if w % 65536 = 32 then some (.ctz (.ofNat 5 (w / 2097152 % 32)) (.ofNat 5 (w / 65536 % 32))) else
  if w % 65536 = 64 then some (.popc (.ofNat 5 (w / 2097152 % 32)) (.ofNat 5 (w / 65536 % 32))) else
  if w % 2048 = 96 then some (.sext (.ofNat 5 (w / 2097152 % 32)) (.ofNat 5 (w / 65536 % 32)) (.ofNat 5 (w / 2048 % 32))) else
  if w % 2048 = 128 then some (.zext (.ofNat 5 (w / 2097152 % 32)) (.ofNat 5 (w / 65536 % 32)) (.ofNat 5 (w / 2048 % 32))) else
  if w % 65536 = 160 then some (.bswap (.ofNat 5 (w / 2097152 % 32)) (.ofNat 5 (w / 65536 % 32))) else
  if w % 2048 = 192 then some (.lea (.ofNat 5 (w / 2097152 % 32)) (.ofNat 5 (w / 65536 % 32)) (.ofNat 5 (w / 2048 % 32))) else
  if w % 2048 = 224 then some (.insh (.ofNat 5 (w / 2097152 % 32)) (.ofNat 5 (w / 65536 % 32)) (.ofNat 5 (w / 2048 % 32))) else
  if w % 2048 = 256 then some (.csel (.ofNat 5 (w / 2097152 % 32)) (.ofNat 5 (w / 65536 % 32)) (.ofNat 5 (w / 2048 % 32))) else
  none

/-- The rows of the majors 0x0C, 0x0D, 0x0E, 0x0F, 0x10, 0x11, 0x12, 0x13, 0x14, 0x15, 0x16. -/
def decodeBranch (w : Nat) : Option Instr :=
  if w / 67108864 = 12 then some (.beq (.ofNat 5 (w / 2097152 % 32)) (.ofNat 5 (w / 65536 % 32)) (.ofNat 16 (w % 65536))) else
  if w / 67108864 = 13 then some (.bne (.ofNat 5 (w / 2097152 % 32)) (.ofNat 5 (w / 65536 % 32)) (.ofNat 16 (w % 65536))) else
  if w / 67108864 = 14 then some (.blt (.ofNat 5 (w / 2097152 % 32)) (.ofNat 5 (w / 65536 % 32)) (.ofNat 16 (w % 65536))) else
  if w / 67108864 = 15 then some (.bge (.ofNat 5 (w / 2097152 % 32)) (.ofNat 5 (w / 65536 % 32)) (.ofNat 16 (w % 65536))) else
  if w / 67108864 = 16 then some (.bltu (.ofNat 5 (w / 2097152 % 32)) (.ofNat 5 (w / 65536 % 32)) (.ofNat 16 (w % 65536))) else
  if w / 67108864 = 17 then some (.bgeu (.ofNat 5 (w / 2097152 % 32)) (.ofNat 5 (w / 65536 % 32)) (.ofNat 16 (w % 65536))) else
  if w / 67108864 = 18 then some (.jal (.ofNat 5 (w / 2097152 % 32)) (.ofNat 21 (w % 2097152))) else
  if w / 67108864 = 19 then some (.jalr (.ofNat 5 (w / 2097152 % 32)) (.ofNat 5 (w / 65536 % 32)) (.ofNat 16 (w % 65536))) else
  if w / 67108864 = 20 ∧ w % 2048 = 0 then some (.jtab (.ofNat 5 (w / 2097152 % 32)) (.ofNat 5 (w / 65536 % 32)) (.ofNat 5 (w / 2048 % 32))) else
  if w / 67108864 = 21 ∧ w / 32 % 64 = 0 then some (.strip (.ofNat 5 (w / 2097152 % 32)) (.ofNat 5 (w / 65536 % 32)) (.ofNat 5 (w / 2048 % 32)) (.ofNat 5 (w % 32))) else
  if w / 67108864 = 22 then some (.bev (.ofNat 5 (w / 2097152 % 32)) (.ofNat 5 (w / 65536 % 32)) (.ofNat 16 (w % 65536))) else
  none

/-- The rows of the majors 0x18, 0x19, 0x1A. -/
def decodeMem (w : Nat) : Option Instr :=
  if w / 67108864 = 24 then some (.ld (.ofNat 5 (w / 2097152 % 32)) (.ofNat 5 (w / 65536 % 32)) (.ofNat 13 (w / 8 % 8192)) (.ofNat 2 (w / 2 % 4)) (.ofNat 1 (w % 2))) else
  if w / 67108864 = 25 ∧ w % 2 = 0 then some (.st (.ofNat 5 (w / 2097152 % 32)) (.ofNat 5 (w / 65536 % 32)) (.ofNat 13 (w / 8 % 8192)) (.ofNat 2 (w / 2 % 4))) else
  if w / 67108864 = 26 ∧ w / 8 % 256 = 0 then some (.ldx (.ofNat 5 (w / 2097152 % 32)) (.ofNat 5 (w / 65536 % 32)) (.ofNat 5 (w / 2048 % 32)) (.ofNat 1 (w / 4 % 2)) (.ofNat 2 (w % 4))) else
  if w / 67108864 = 26 ∧ w / 4 % 512 = 8 then some (.stx (.ofNat 5 (w / 2097152 % 32)) (.ofNat 5 (w / 65536 % 32)) (.ofNat 5 (w / 2048 % 32)) (.ofNat 2 (w % 4))) else
  if w / 67108864 = 26 ∧ w / 2097152 % 32 = 0 ∧ w % 65536 = 64 then some (.pref (.ofNat 5 (w / 65536 % 32))) else
  none

/-- The rows of the majors 0x1B. -/
def decodeAmo (w : Nat) : Option Instr :=
  if w / 16 % 128 = 0 ∧ w / 4 % 2 = 0 then some (.amoadd (.ofNat 5 (w / 2097152 % 32)) (.ofNat 5 (w / 65536 % 32)) (.ofNat 5 (w / 2048 % 32)) (.ofNat 1 (w / 8 % 2)) (.ofNat 2 (w % 4))) else
  if w / 16 % 128 = 2 ∧ w / 4 % 2 = 0 then some (.amoand (.ofNat 5 (w / 2097152 % 32)) (.ofNat 5 (w / 65536 % 32)) (.ofNat 5 (w / 2048 % 32)) (.ofNat 1 (w / 8 % 2)) (.ofNat 2 (w % 4))) else
  if w / 16 % 128 = 4 ∧ w / 4 % 2 = 0 then some (.amoor (.ofNat 5 (w / 2097152 % 32)) (.ofNat 5 (w / 65536 % 32)) (.ofNat 5 (w / 2048 % 32)) (.ofNat 1 (w / 8 % 2)) (.ofNat 2 (w % 4))) else
  if w / 16 % 128 = 6 ∧ w / 4 % 2 = 0 then some (.amoxor (.ofNat 5 (w / 2097152 % 32)) (.ofNat 5 (w / 65536 % 32)) (.ofNat 5 (w / 2048 % 32)) (.ofNat 1 (w / 8 % 2)) (.ofNat 2 (w % 4))) else
  if w / 16 % 128 = 8 ∧ w / 4 % 2 = 0 then some (.amomin (.ofNat 5 (w / 2097152 % 32)) (.ofNat 5 (w / 65536 % 32)) (.ofNat 5 (w / 2048 % 32)) (.ofNat 1 (w / 8 % 2)) (.ofNat 2 (w % 4))) else
  if w / 16 % 128 = 10 ∧ w / 4 % 2 = 0 then some (.amomax (.ofNat 5 (w / 2097152 % 32)) (.ofNat 5 (w / 65536 % 32)) (.ofNat 5 (w / 2048 % 32)) (.ofNat 1 (w / 8 % 2)) (.ofNat 2 (w % 4))) else
  if w / 16 % 128 = 12 ∧ w / 4 % 2 = 0 then some (.amominu (.ofNat 5 (w / 2097152 % 32)) (.ofNat 5 (w / 65536 % 32)) (.ofNat 5 (w / 2048 % 32)) (.ofNat 1 (w / 8 % 2)) (.ofNat 2 (w % 4))) else
  if w / 16 % 128 = 14 ∧ w / 4 % 2 = 0 then some (.amomaxu (.ofNat 5 (w / 2097152 % 32)) (.ofNat 5 (w / 65536 % 32)) (.ofNat 5 (w / 2048 % 32)) (.ofNat 1 (w / 8 % 2)) (.ofNat 2 (w % 4))) else
  if w / 16 % 128 = 16 then some (.amoswap (.ofNat 5 (w / 2097152 % 32)) (.ofNat 5 (w / 65536 % 32)) (.ofNat 5 (w / 2048 % 32)) (.ofNat 1 (w / 8 % 2)) (.ofNat 1 (w / 4 % 2)) (.ofNat 2 (w % 4))) else
  if w / 16 % 128 = 18 then some (.amocas (.ofNat 5 (w / 2097152 % 32)) (.ofNat 5 (w / 65536 % 32)) (.ofNat 5 (w / 2048 % 32)) (.ofNat 1 (w / 8 % 2)) (.ofNat 1 (w / 4 % 2)) (.ofNat 2 (w % 4))) else
  if w / 16 % 128 = 20 ∧ w % 8 = 2 then some (.amofadd (.ofNat 5 (w / 2097152 % 32)) (.ofNat 5 (w / 65536 % 32)) (.ofNat 5 (w / 2048 % 32)) (.ofNat 1 (w / 8 % 2))) else
  none

/-- The rows of the majors 0x1C. -/
def decodeOrder (w : Nat) : Option Instr :=
  if w / 4 % 16777216 = 0 then some (.fence (.ofNat 2 (w % 4))) else
  if w % 67108864 = 32 then some .chunkend else
  if w % 65536 = 64 then some (.chunklim (.ofNat 5 (w / 2097152 % 32)) (.ofNat 5 (w / 65536 % 32))) else
  if w / 2097152 % 32 = 0 ∧ w % 2048 = 96 then some (.waitv (.ofNat 5 (w / 65536 % 32)) (.ofNat 5 (w / 2048 % 32))) else
  if w / 32 % 2048 = 4 ∧ w / 4 % 2 = 0 then some (.ldaq (.ofNat 5 (w / 2097152 % 32)) (.ofNat 5 (w / 65536 % 32)) (.ofNat 2 (w / 8 % 4)) (.ofNat 2 (w % 4))) else
  if w / 32 % 2048 = 5 ∧ w / 4 % 2 = 0 then some (.strl (.ofNat 5 (w / 2097152 % 32)) (.ofNat 5 (w / 65536 % 32)) (.ofNat 2 (w / 8 % 4)) (.ofNat 2 (w % 4))) else
  none

/-- The rows of the majors 0x20. -/
def decodeVctl (w : Nat) : Option Instr :=
  if w % 65536 = 240 then some (.vsetl (.ofNat 5 (w / 2097152 % 32)) (.ofNat 5 (w / 65536 % 32))) else
  if w % 2097152 = 241 then some (.force (.ofNat 5 (w / 2097152 % 32))) else
  if w % 2097152 = 242 then some (.vmat (.ofNat 5 (w / 2097152 % 32))) else
  if w % 2097152 = 243 then some (.vdrop (.ofNat 5 (w / 2097152 % 32))) else
  if w / 256 % 256 = 0 ∧ w % 16 = 4 then some (.vbcast (.ofNat 5 (w / 2097152 % 32)) (.ofNat 5 (w / 65536 % 32)) (.ofNat 4 (w / 16 % 16))) else
  if w % 2048 = 245 then some (.vget (.ofNat 5 (w / 2097152 % 32)) (.ofNat 5 (w / 65536 % 32)) (.ofNat 5 (w / 2048 % 32))) else
  if w % 2048 = 246 then some (.vins (.ofNat 5 (w / 2097152 % 32)) (.ofNat 5 (w / 65536 % 32)) (.ofNat 5 (w / 2048 % 32))) else
  if w / 65536 % 32 = 0 ∧ w % 2048 = 247 then some (.vconf (.ofNat 5 (w / 2097152 % 32)) (.ofNat 5 (w / 2048 % 32))) else
  if w / 524288 % 4 = 0 ∧ w % 2048 = 248 then some (.vcompact (.ofNat 5 (w / 2097152 % 32)) (.ofNat 3 (w / 65536 % 8)) (.ofNat 5 (w / 2048 % 32))) else
  if w / 524288 % 4 = 0 ∧ w % 65536 = 249 then some (.mcnt (.ofNat 5 (w / 2097152 % 32)) (.ofNat 3 (w / 65536 % 8))) else
  if w / 524288 % 4 = 0 ∧ w % 65536 = 250 then some (.mfirst (.ofNat 5 (w / 2097152 % 32)) (.ofNat 3 (w / 65536 % 8))) else
  if w / 16777216 % 4 = 0 ∧ w / 524288 % 4 = 0 ∧ w / 32768 % 2 = 0 ∧ w % 256 = 251 then some (.mlogLogic (.ofNat 3 (w / 2097152 % 8)) (.ofNat 3 (w / 65536 % 8)) (.ofNat 4 (w / 2048 % 16)) (.ofNat 3 (w / 256 % 8))) else
  if w / 16777216 % 4 = 0 ∧ w / 65536 % 32 = 8 ∧ w % 2048 = 251 then some (.mlogFromVector (.ofNat 3 (w / 2097152 % 8)) (.ofNat 5 (w / 2048 % 32))) else
  if w / 524288 % 4 = 2 ∧ w % 65536 = 251 then some (.mlogToVector (.ofNat 5 (w / 2097152 % 32)) (.ofNat 3 (w / 65536 % 8))) else
  none

/-- The rows of the majors 0x21. -/
def decodeVload (w : Nat) : Option Instr :=
  if w / 256 % 256 = 0 ∧ w % 16 = 0 then some (.vld (.ofNat 5 (w / 2097152 % 32)) (.ofNat 5 (w / 65536 % 32)) (.ofNat 4 (w / 16 % 16))) else
  if w / 256 % 256 = 0 ∧ w % 16 = 1 then some (.vldFf (.ofNat 5 (w / 2097152 % 32)) (.ofNat 5 (w / 65536 % 32)) (.ofNat 4 (w / 16 % 16))) else
  if w / 16777216 % 4 = 0 ∧ w % 65536 = 226 then some (.vldM (.ofNat 3 (w / 2097152 % 8)) (.ofNat 5 (w / 65536 % 32))) else
  if w / 256 % 8 = 0 ∧ w % 16 = 3 then some (.vlds (.ofNat 5 (w / 2097152 % 32)) (.ofNat 5 (w / 65536 % 32)) (.ofNat 5 (w / 2048 % 32)) (.ofNat 4 (w / 16 % 16))) else
  if w / 256 % 8 = 0 ∧ w % 16 = 4 then some (.vldx (.ofNat 5 (w / 2097152 % 32)) (.ofNat 5 (w / 65536 % 32)) (.ofNat 5 (w / 2048 % 32)) (.ofNat 4 (w / 16 % 16))) else
  if w / 256 % 8 = 0 ∧ w % 16 = 5 then some (.vldseg (.ofNat 5 (w / 2097152 % 32)) (.ofNat 5 (w / 65536 % 32)) (.ofNat 5 (w / 2048 % 32)) (.ofNat 4 (w / 16 % 16))) else
  if w / 256 % 8 = 0 ∧ w % 16 = 6 then some (.vldt (.ofNat 5 (w / 2097152 % 32)) (.ofNat 5 (w / 65536 % 32)) (.ofNat 5 (w / 2048 % 32)) (.ofNat 4 (w / 16 % 16))) else
  none

/-- The rows of the majors 0x22. -/
def decodeVstore (w : Nat) : Option Instr :=
  if w / 2048 % 32 = 0 ∧ w % 16 = 0 then some (.vst (.ofNat 5 (w / 2097152 % 32)) (.ofNat 5 (w / 65536 % 32)) (.ofNat 3 (w / 256 % 8)) (.ofNat 4 (w / 16 % 16))) else
  if w % 16 = 1 then some (.vsts (.ofNat 5 (w / 2097152 % 32)) (.ofNat 5 (w / 65536 % 32)) (.ofNat 5 (w / 2048 % 32)) (.ofNat 3 (w / 256 % 8)) (.ofNat 4 (w / 16 % 16))) else
  if w % 16 = 2 then some (.vstx (.ofNat 5 (w / 2097152 % 32)) (.ofNat 5 (w / 65536 % 32)) (.ofNat 5 (w / 2048 % 32)) (.ofNat 3 (w / 256 % 8)) (.ofNat 4 (w / 16 % 16))) else
  if w % 16 = 3 then some (.vstseg (.ofNat 5 (w / 2097152 % 32)) (.ofNat 5 (w / 65536 % 32)) (.ofNat 5 (w / 2048 % 32)) (.ofNat 3 (w / 256 % 8)) (.ofNat 4 (w / 16 % 16))) else
  if w % 16 = 4 then some (.vstt (.ofNat 5 (w / 2097152 % 32)) (.ofNat 5 (w / 65536 % 32)) (.ofNat 5 (w / 2048 % 32)) (.ofNat 3 (w / 256 % 8)) (.ofNat 4 (w / 16 % 16))) else
  if w % 16 = 8 then some (.vscrAdd (.ofNat 5 (w / 2097152 % 32)) (.ofNat 5 (w / 65536 % 32)) (.ofNat 5 (w / 2048 % 32)) (.ofNat 3 (w / 256 % 8)) (.ofNat 4 (w / 16 % 16))) else
  if w % 16 = 9 then some (.vscrMin (.ofNat 5 (w / 2097152 % 32)) (.ofNat 5 (w / 65536 % 32)) (.ofNat 5 (w / 2048 % 32)) (.ofNat 3 (w / 256 % 8)) (.ofNat 4 (w / 16 % 16))) else
  if w % 16 = 10 then some (.vscrMax (.ofNat 5 (w / 2097152 % 32)) (.ofNat 5 (w / 65536 % 32)) (.ofNat 5 (w / 2048 % 32)) (.ofNat 3 (w / 256 % 8)) (.ofNat 4 (w / 16 % 16))) else
  if w % 16 = 11 then some (.vscrAnd (.ofNat 5 (w / 2097152 % 32)) (.ofNat 5 (w / 65536 % 32)) (.ofNat 5 (w / 2048 % 32)) (.ofNat 3 (w / 256 % 8)) (.ofNat 4 (w / 16 % 16))) else
  if w % 16 = 12 then some (.vscrOr (.ofNat 5 (w / 2097152 % 32)) (.ofNat 5 (w / 65536 % 32)) (.ofNat 5 (w / 2048 % 32)) (.ofNat 3 (w / 256 % 8)) (.ofNat 4 (w / 16 % 16))) else
  if w % 16 = 13 then some (.vscrXor (.ofNat 5 (w / 2097152 % 32)) (.ofNat 5 (w / 65536 % 32)) (.ofNat 5 (w / 2048 % 32)) (.ofNat 3 (w / 256 % 8)) (.ofNat 4 (w / 16 % 16))) else
  none

/-- The rows of the majors 0x23. -/
def decodeVred (w : Nat) : Option Instr :=
  if w / 2048 % 32 = 0 ∧ w % 16 = 0 then some (.vredAdd (.ofNat 5 (w / 2097152 % 32)) (.ofNat 5 (w / 65536 % 32)) (.ofNat 3 (w / 256 % 8)) (.ofNat 4 (w / 16 % 16))) else
  if w / 2048 % 32 = 0 ∧ w % 16 = 1 then some (.vredMin (.ofNat 5 (w / 2097152 % 32)) (.ofNat 5 (w / 65536 % 32)) (.ofNat 3 (w / 256 % 8)) (.ofNat 4 (w / 16 % 16))) else
  if w / 2048 % 32 = 0 ∧ w % 16 = 2 then some (.vredMax (.ofNat 5 (w / 2097152 % 32)) (.ofNat 5 (w / 65536 % 32)) (.ofNat 3 (w / 256 % 8)) (.ofNat 4 (w / 16 % 16))) else
  if w / 2048 % 32 = 0 ∧ w % 16 = 3 then some (.vredAnd (.ofNat 5 (w / 2097152 % 32)) (.ofNat 5 (w / 65536 % 32)) (.ofNat 3 (w / 256 % 8)) (.ofNat 4 (w / 16 % 16))) else
  if w / 2048 % 32 = 0 ∧ w % 16 = 4 then some (.vredOr (.ofNat 5 (w / 2097152 % 32)) (.ofNat 5 (w / 65536 % 32)) (.ofNat 3 (w / 256 % 8)) (.ofNat 4 (w / 16 % 16))) else
  if w / 2048 % 32 = 0 ∧ w % 16 = 5 then some (.vredXor (.ofNat 5 (w / 2097152 % 32)) (.ofNat 5 (w / 65536 % 32)) (.ofNat 3 (w / 256 % 8)) (.ofNat 4 (w / 16 % 16))) else
  if w / 2048 % 32 = 0 ∧ w % 16 = 8 then some (.vrediMin (.ofNat 5 (w / 2097152 % 32)) (.ofNat 5 (w / 65536 % 32)) (.ofNat 3 (w / 256 % 8)) (.ofNat 4 (w / 16 % 16))) else
  if w / 2048 % 32 = 0 ∧ w % 16 = 9 then some (.vrediMax (.ofNat 5 (w / 2097152 % 32)) (.ofNat 5 (w / 65536 % 32)) (.ofNat 3 (w / 256 % 8)) (.ofNat 4 (w / 16 % 16))) else
  none

/-- The rows of the majors 0x24. -/
def decodeWeave (w : Nat) : Option Instr :=
  if w / 2097152 % 32 = 0 then some (.weave (.ofNat 21 (w % 2097152))) else
  none

/-- The rows of the majors 0x28. -/
def decodeMatrix (w : Nat) : Option Instr :=
  if w / 4194304 % 16 = 0 ∧ w / 256 % 256 = 0 ∧ w % 16 = 0 then some (.mldw (.ofNat 1 (w / 2097152 % 2)) (.ofNat 5 (w / 65536 % 32)) (.ofNat 4 (w / 16 % 16))) else
  if w % 16 = 1 then some (.mrow (.ofNat 5 (w / 2097152 % 32)) (.ofNat 5 (w / 65536 % 32)) (.ofNat 2 (w / 16384 % 4)) (.ofNat 1 (w / 8192 % 2)) (.ofNat 2 (w / 2048 % 4)) (.ofNat 3 (w / 256 % 8)) (.ofNat 4 (w / 16 % 16))) else
  if w % 16 = 2 then some (.mrowAcc (.ofNat 5 (w / 2097152 % 32)) (.ofNat 5 (w / 65536 % 32)) (.ofNat 2 (w / 16384 % 4)) (.ofNat 1 (w / 8192 % 2)) (.ofNat 2 (w / 2048 % 4)) (.ofNat 3 (w / 256 % 8)) (.ofNat 4 (w / 16 % 16))) else
  if w % 16 = 3 then some (.mslide (.ofNat 5 (w / 2097152 % 32)) (.ofNat 5 (w / 65536 % 32)) (.ofNat 2 (w / 16384 % 4)) (.ofNat 1 (w / 8192 % 2)) (.ofNat 2 (w / 2048 % 4)) (.ofNat 3 (w / 256 % 8)) (.ofNat 4 (w / 16 % 16))) else
  if w % 16 = 4 then some (.mslideAcc (.ofNat 5 (w / 2097152 % 32)) (.ofNat 5 (w / 65536 % 32)) (.ofNat 2 (w / 16384 % 4)) (.ofNat 1 (w / 8192 % 2)) (.ofNat 2 (w / 2048 % 4)) (.ofNat 3 (w / 256 % 8)) (.ofNat 4 (w / 16 % 16))) else
  if w / 8388608 % 8 = 0 ∧ w % 2048 = 245 then some (.mzero (.ofNat 2 (w / 2097152 % 4)) (.ofNat 5 (w / 65536 % 32)) (.ofNat 5 (w / 2048 % 32))) else
  if w % 16 = 6 then some (.mread (.ofNat 5 (w / 2097152 % 32)) (.ofNat 5 (w / 65536 % 32)) (.ofNat 2 (w / 16384 % 4)) (.ofNat 1 (w / 8192 % 2)) (.ofNat 2 (w / 2048 % 4)) (.ofNat 3 (w / 256 % 8)) (.ofNat 4 (w / 16 % 16))) else
  if w / 16777216 % 4 = 0 ∧ w % 65536 = 247 then some (.mscale (.ofNat 3 (w / 2097152 % 8)) (.ofNat 5 (w / 65536 % 32))) else
  none

/-- The rows of the majors 0x2C. -/
def decodeEngine (w : Nat) : Option Instr :=
  if w / 16 % 128 = 0 then some (.acopy (.ofNat 5 (w / 2097152 % 32)) (.ofNat 5 (w / 65536 % 32)) (.ofNat 5 (w / 2048 % 32)) (.ofNat 4 (w % 16))) else
  if w / 16 % 128 = 2 then some (.acopyt (.ofNat 5 (w / 2097152 % 32)) (.ofNat 5 (w / 65536 % 32)) (.ofNat 5 (w / 2048 % 32)) (.ofNat 4 (w % 16))) else
  if w / 16 % 131072 = 4 then some (.evwait (.ofNat 5 (w / 2097152 % 32)) (.ofNat 4 (w % 16))) else
  if w / 16 % 131072 = 6 then some (.evclr (.ofNat 5 (w / 2097152 % 32)) (.ofNat 4 (w % 16))) else
  if w % 67108864 = 128 then some .uiret else
  if w / 2097152 % 32 = 0 ∧ w % 2048 = 160 then some (.icinv (.ofNat 5 (w / 65536 % 32)) (.ofNat 5 (w / 2048 % 32))) else
  none

/-- The rows of the majors 0x2D. -/
def decodeTask (w : Nat) : Option Instr :=
  if w % 2048 = 0 then some (.panpost (.ofNat 5 (w / 2097152 % 32)) (.ofNat 5 (w / 65536 % 32)) (.ofNat 5 (w / 2048 % 32))) else
  if w % 2048 = 32 then some (.panget (.ofNat 5 (w / 2097152 % 32)) (.ofNat 5 (w / 65536 % 32)) (.ofNat 5 (w / 2048 % 32))) else
  if w % 2097152 = 64 then some (.pandone (.ofNat 5 (w / 2097152 % 32))) else
  if w / 2097152 % 32 = 0 ∧ w % 2048 = 96 then some (.wmpub (.ofNat 5 (w / 65536 % 32)) (.ofNat 5 (w / 2048 % 32))) else
  if w / 2097152 % 32 = 0 ∧ w % 2048 = 128 then some (.depset (.ofNat 5 (w / 65536 % 32)) (.ofNat 5 (w / 2048 % 32))) else
  if w / 2097152 % 32 = 0 ∧ w % 65536 = 160 then some (.depdec (.ofNat 5 (w / 65536 % 32))) else
  if w % 2048 = 192 then some (.qsend (.ofNat 5 (w / 2097152 % 32)) (.ofNat 5 (w / 65536 % 32)) (.ofNat 5 (w / 2048 % 32))) else
  if w % 2048 = 193 then some (.qsendNb (.ofNat 5 (w / 2097152 % 32)) (.ofNat 5 (w / 65536 % 32)) (.ofNat 5 (w / 2048 % 32))) else
  if w % 2048 = 194 then some (.qsendA (.ofNat 5 (w / 2097152 % 32)) (.ofNat 5 (w / 65536 % 32)) (.ofNat 5 (w / 2048 % 32))) else
  if w % 2048 = 224 then some (.qtake (.ofNat 5 (w / 2097152 % 32)) (.ofNat 5 (w / 65536 % 32)) (.ofNat 5 (w / 2048 % 32))) else
  none

/-- The rows of the majors 0x2E. -/
def decodeGroup (w : Nat) : Option Instr :=
  if w % 65536 = 0 then some (.gjoin (.ofNat 5 (w / 2097152 % 32)) (.ofNat 5 (w / 65536 % 32))) else
  if w % 65536 = 32 then some (.gleave (.ofNat 5 (w / 2097152 % 32)) (.ofNat 5 (w / 65536 % 32))) else
  if w % 65536 = 64 then some (.bara (.ofNat 5 (w / 2097152 % 32)) (.ofNat 5 (w / 65536 % 32))) else
  if w % 2048 = 96 then some (.barw (.ofNat 5 (w / 2097152 % 32)) (.ofNat 5 (w / 65536 % 32)) (.ofNat 5 (w / 2048 % 32))) else
  if w % 2048 = 128 then some (.barinfo (.ofNat 5 (w / 2097152 % 32)) (.ofNat 5 (w / 65536 % 32)) (.ofNat 5 (w / 2048 % 32))) else
  none

/-- The rows of the majors 0x2F. -/
def decodeRemote (w : Nat) : Option Instr :=
  if w / 4 % 16384 = 0 then some (.rld (.ofNat 5 (w / 2097152 % 32)) (.ofNat 5 (w / 65536 % 32)) (.ofNat 2 (w % 4))) else
  if w / 4 % 16384 = 8 then some (.rst (.ofNat 5 (w / 2097152 % 32)) (.ofNat 5 (w / 65536 % 32)) (.ofNat 2 (w % 4))) else
  if w / 32 % 64 = 2 ∧ w % 4 = 0 then some (.ramo (.ofNat 5 (w / 2097152 % 32)) (.ofNat 5 (w / 65536 % 32)) (.ofNat 5 (w / 2048 % 32)) (.ofNat 3 (w / 4 % 8))) else
  if w / 16384 % 4 = 0 ∧ w / 32 % 64 = 3 ∧ w % 4 = 0 then some (.rred (.ofNat 5 (w / 2097152 % 32)) (.ofNat 5 (w / 65536 % 32)) (.ofNat 3 (w / 2048 % 8)) (.ofNat 3 (w / 4 % 8))) else
  none

/-- The rows of the majors 0x30. -/
def decodeCsr (w : Nat) : Option Instr :=
  if w / 4096 % 512 = 0 then some (.csrrd (.ofNat 5 (w / 2097152 % 32)) (.ofNat 12 (w % 4096))) else
  if w / 4096 % 16 = 1 then some (.csrwr (.ofNat 5 (w / 2097152 % 32)) (.ofNat 5 (w / 65536 % 32)) (.ofNat 12 (w % 4096))) else
  if w / 4096 % 16 = 2 then some (.csrset (.ofNat 5 (w / 2097152 % 32)) (.ofNat 5 (w / 65536 % 32)) (.ofNat 12 (w % 4096))) else
  if w / 4096 % 16 = 3 then some (.csrclr (.ofNat 5 (w / 2097152 % 32)) (.ofNat 5 (w / 65536 % 32)) (.ofNat 12 (w % 4096))) else
  if w % 2097152 = 16384 then some (.rand (.ofNat 5 (w / 2097152 % 32))) else
  none

/-- The rows of the majors 0x31. -/
def decodeThread (w : Nat) : Option Instr :=
  if w % 2097152 = 0 then some (.park (.ofNat 5 (w / 2097152 % 32))) else
  if w / 2097152 % 32 = 0 ∧ w % 65536 = 32 then some (.parkC (.ofNat 5 (w / 65536 % 32))) else
  if w % 2048 = 64 then some (.wake (.ofNat 5 (w / 2097152 % 32)) (.ofNat 5 (w / 65536 % 32)) (.ofNat 5 (w / 2048 % 32))) else
  if w % 67108864 = 96 then some .nap else
  if w % 67108864 = 128 then some .yield else
  none

/-- The rows of the majors 0x3F. -/
def decodeSystem (w : Nat) : Option Instr :=
  if w % 67108864 = 0 then some .ecall else
  if w % 67108864 = 32 then some .hcall else
  if w / 2097152 % 32 = 0 ∧ w % 65536 = 64 then some (.trap (.ofNat 5 (w / 65536 % 32))) else
  if w % 67108864 = 96 then some .iret else
  if w % 67108864 = 128 then some .ctxsave else
  if w / 2097152 % 32 = 0 ∧ w % 65536 = 160 then some (.ctxload (.ofNat 5 (w / 65536 % 32))) else
  if w / 2097152 % 32 = 0 ∧ w % 65536 = 192 then some (.halt (.ofNat 5 (w / 65536 % 32))) else
  if w % 67108864 = 224 then some .brk else
  if w / 2097152 % 32 = 0 ∧ w % 2048 = 256 then some (.tlbinv (.ofNat 5 (w / 65536 % 32)) (.ofNat 5 (w / 2048 % 32))) else
  if w % 2048 = 288 then some (.framegive (.ofNat 5 (w / 2097152 % 32)) (.ofNat 5 (w / 65536 % 32)) (.ofNat 5 (w / 2048 % 32))) else
  if w % 2048 = 320 then some (.keyload (.ofNat 5 (w / 2097152 % 32)) (.ofNat 5 (w / 65536 % 32)) (.ofNat 5 (w / 2048 % 32))) else
  if w / 2097152 % 32 = 0 ∧ w % 2048 = 352 then some (.tmark (.ofNat 5 (w / 65536 % 32)) (.ofNat 5 (w / 2048 % 32))) else
  none

/-- The family of a major opcode (R33); none for an unassigned one. -/
def decodeMajor (maj w : Nat) : Option (Option Instr) :=
  if maj = 1 then some (decodeOp w) else
  if 2 ≤ maj ∧ maj ≤ 9 then some (decodeImm w) else
  if maj = 10 then some (decodeBit w) else
  if 12 ≤ maj ∧ maj ≤ 22 then some (decodeBranch w) else
  if maj = 24 ∨ maj = 25 ∨ maj = 26 then some (decodeMem w) else
  if maj = 27 then some (decodeAmo w) else
  if maj = 28 then some (decodeOrder w) else
  if maj = 32 then some (decodeVctl w) else
  if maj = 33 then some (decodeVload w) else
  if maj = 34 then some (decodeVstore w) else
  if maj = 35 then some (decodeVred w) else
  if maj = 36 then some (decodeWeave w) else
  if maj = 40 then some (decodeMatrix w) else
  if maj = 44 then some (decodeEngine w) else
  if maj = 45 then some (decodeTask w) else
  if maj = 46 then some (decodeGroup w) else
  if maj = 47 then some (decodeRemote w) else
  if maj = 48 then some (decodeCsr w) else
  if maj = 49 then some (decodeThread w) else
  if maj = 63 then some (decodeSystem w) else
  none

/-- Decode one control word (R34): total, and every refusal has a name. -/
def decode (w : Nat) : Except Reject Instr :=
  match decodeMajor (w / 67108864) w with
  | none => .error .unassignedMajor
  | some none => .error .unassignedSelector
  | some (some i) => if i.wf then .ok i else .error .badField

/-- The control word of an instruction (R29, R53); an event of the table has no word and gives 0. -/
def encode : Instr → Nat
  | .add d a b => 67108864 + d.toNat * 2097152 + a.toNat * 65536 + b.toNat * 2048
  | .sub d a b => 67108896 + d.toNat * 2097152 + a.toNat * 65536 + b.toNat * 2048
  | .mul d a b => 67108928 + d.toNat * 2097152 + a.toNat * 65536 + b.toNat * 2048
  | .mulh d a b => 67108960 + d.toNat * 2097152 + a.toNat * 65536 + b.toNat * 2048
  | .mulhu d a b => 67108992 + d.toNat * 2097152 + a.toNat * 65536 + b.toNat * 2048
  | .div d a b => 67109024 + d.toNat * 2097152 + a.toNat * 65536 + b.toNat * 2048
  | .divu d a b => 67109056 + d.toNat * 2097152 + a.toNat * 65536 + b.toNat * 2048
  | .rem d a b => 67109088 + d.toNat * 2097152 + a.toNat * 65536 + b.toNat * 2048
  | .remu d a b => 67109120 + d.toNat * 2097152 + a.toNat * 65536 + b.toNat * 2048
  | .and d a b => 67109152 + d.toNat * 2097152 + a.toNat * 65536 + b.toNat * 2048
  | .or d a b => 67109184 + d.toNat * 2097152 + a.toNat * 65536 + b.toNat * 2048
  | .xor d a b => 67109216 + d.toNat * 2097152 + a.toNat * 65536 + b.toNat * 2048
  | .andn d a b => 67109248 + d.toNat * 2097152 + a.toNat * 65536 + b.toNat * 2048
  | .orn d a b => 67109280 + d.toNat * 2097152 + a.toNat * 65536 + b.toNat * 2048
  | .sll d a b => 67109312 + d.toNat * 2097152 + a.toNat * 65536 + b.toNat * 2048
  | .srl d a b => 67109344 + d.toNat * 2097152 + a.toNat * 65536 + b.toNat * 2048
  | .sra d a b => 67109376 + d.toNat * 2097152 + a.toNat * 65536 + b.toNat * 2048
  | .ror d a b => 67109408 + d.toNat * 2097152 + a.toNat * 65536 + b.toNat * 2048
  | .min d a b => 67109440 + d.toNat * 2097152 + a.toNat * 65536 + b.toNat * 2048
  | .max d a b => 67109472 + d.toNat * 2097152 + a.toNat * 65536 + b.toNat * 2048
  | .minu d a b => 67109504 + d.toNat * 2097152 + a.toNat * 65536 + b.toNat * 2048
  | .maxu d a b => 67109536 + d.toNat * 2097152 + a.toNat * 65536 + b.toNat * 2048
  | .slt d a b => 67109568 + d.toNat * 2097152 + a.toNat * 65536 + b.toNat * 2048
  | .sltu d a b => 67109600 + d.toNat * 2097152 + a.toNat * 65536 + b.toNat * 2048
  | .addi d a i => 134217728 + d.toNat * 2097152 + a.toNat * 65536 + i.toNat
  | .andi d a i => 201326592 + d.toNat * 2097152 + a.toNat * 65536 + i.toNat
  | .ori d a i => 268435456 + d.toNat * 2097152 + a.toNat * 65536 + i.toNat
  | .xori d a i => 335544320 + d.toNat * 2097152 + a.toNat * 65536 + i.toNat
  | .slli d a k => 402653184 + d.toNat * 2097152 + a.toNat * 65536 + k.toNat
  | .srli d a k => 402669568 + d.toNat * 2097152 + a.toNat * 65536 + k.toNat
  | .srai d a k => 402685952 + d.toNat * 2097152 + a.toNat * 65536 + k.toNat
  | .slti d a i => 469762048 + d.toNat * 2097152 + a.toNat * 65536 + i.toNat
  | .sltiu d a i => 469794816 + d.toNat * 2097152 + a.toNat * 65536 + i.toNat
  | .lui d i => 536870912 + d.toNat * 2097152 + i.toNat
  | .addpc d i => 603979776 + d.toNat * 2097152 + i.toNat
  | .clz d a => 671088640 + d.toNat * 2097152 + a.toNat * 65536
  | .ctz d a => 671088672 + d.toNat * 2097152 + a.toNat * 65536
  | .popc d a => 671088704 + d.toNat * 2097152 + a.toNat * 65536
  | .sext d a n => 671088736 + d.toNat * 2097152 + a.toNat * 65536 + n.toNat * 2048
  | .zext d a n => 671088768 + d.toNat * 2097152 + a.toNat * 65536 + n.toNat * 2048
  | .bswap d a => 671088800 + d.toNat * 2097152 + a.toNat * 65536
  | .lea s a b => 671088832 + s.toNat * 2097152 + a.toNat * 65536 + b.toNat * 2048
  | .insh d a b => 671088864 + d.toNat * 2097152 + a.toNat * 65536 + b.toNat * 2048
  | .csel d a b => 671088896 + d.toNat * 2097152 + a.toNat * 65536 + b.toNat * 2048
  | .beq a b o => 805306368 + a.toNat * 2097152 + b.toNat * 65536 + o.toNat
  | .bne a b o => 872415232 + a.toNat * 2097152 + b.toNat * 65536 + o.toNat
  | .blt a b o => 939524096 + a.toNat * 2097152 + b.toNat * 65536 + o.toNat
  | .bge a b o => 1006632960 + a.toNat * 2097152 + b.toNat * 65536 + o.toNat
  | .bltu a b o => 1073741824 + a.toNat * 2097152 + b.toNat * 65536 + o.toNat
  | .bgeu a b o => 1140850688 + a.toNat * 2097152 + b.toNat * 65536 + o.toNat
  | .jal d o => 1207959552 + d.toNat * 2097152 + o.toNat
  | .jalr d a i => 1275068416 + d.toNat * 2097152 + a.toNat * 65536 + i.toNat
  | .jtab d a b => 1342177280 + d.toNat * 2097152 + a.toNat * 65536 + b.toNat * 2048
  | .ld d a i s n => 1610612736 + d.toNat * 2097152 + a.toNat * 65536 + i.toNat * 8 + s.toNat * 2 + n.toNat
  | .st d a i s => 1677721600 + d.toNat * 2097152 + a.toNat * 65536 + i.toNat * 8 + s.toNat * 2
  | .ldx d a b n s => 1744830464 + d.toNat * 2097152 + a.toNat * 65536 + b.toNat * 2048 + n.toNat * 4 + s.toNat
  | .stx d a b s => 1744830496 + d.toNat * 2097152 + a.toNat * 65536 + b.toNat * 2048 + s.toNat
  | .pref a => 1744830528 + a.toNat * 65536
  | .csrrd d c => 3221225472 + d.toNat * 2097152 + c.toNat
  | .csrwr d a c => 3221229568 + d.toNat * 2097152 + a.toNat * 65536 + c.toNat
  | .csrset d a c => 3221233664 + d.toNat * 2097152 + a.toNat * 65536 + c.toNat
  | .csrclr d a c => 3221237760 + d.toNat * 2097152 + a.toNat * 65536 + c.toNat
  | .rand d => 3221241856 + d.toNat * 2097152
  | .park d => 3288334336 + d.toNat * 2097152
  | .parkC a => 3288334368 + a.toNat * 65536
  | .wake d a b => 3288334400 + d.toNat * 2097152 + a.toNat * 65536 + b.toNat * 2048
  | .nap => 3288334432
  | .yield => 3288334464
  | .fence k => 1879048192 + k.toNat
  | .chunkend => 1879048224
  | .chunklim d a => 1879048256 + d.toNat * 2097152 + a.toNat * 65536
  | .waitv a b => 1879048288 + a.toNat * 65536 + b.toNat * 2048
  | .ldaq d a c s => 1879048320 + d.toNat * 2097152 + a.toNat * 65536 + c.toNat * 8 + s.toNat
  | .strl d a c s => 1879048352 + d.toNat * 2097152 + a.toNat * 65536 + c.toNat * 8 + s.toNat
  | .amoadd d a b p s => 1811939328 + d.toNat * 2097152 + a.toNat * 65536 + b.toNat * 2048 + p.toNat * 8 + s.toNat
  | .amoand d a b p s => 1811939360 + d.toNat * 2097152 + a.toNat * 65536 + b.toNat * 2048 + p.toNat * 8 + s.toNat
  | .amoor d a b p s => 1811939392 + d.toNat * 2097152 + a.toNat * 65536 + b.toNat * 2048 + p.toNat * 8 + s.toNat
  | .amoxor d a b p s => 1811939424 + d.toNat * 2097152 + a.toNat * 65536 + b.toNat * 2048 + p.toNat * 8 + s.toNat
  | .amomin d a b p s => 1811939456 + d.toNat * 2097152 + a.toNat * 65536 + b.toNat * 2048 + p.toNat * 8 + s.toNat
  | .amomax d a b p s => 1811939488 + d.toNat * 2097152 + a.toNat * 65536 + b.toNat * 2048 + p.toNat * 8 + s.toNat
  | .amominu d a b p s => 1811939520 + d.toNat * 2097152 + a.toNat * 65536 + b.toNat * 2048 + p.toNat * 8 + s.toNat
  | .amomaxu d a b p s => 1811939552 + d.toNat * 2097152 + a.toNat * 65536 + b.toNat * 2048 + p.toNat * 8 + s.toNat
  | .amoswap d a b p q s => 1811939584 + d.toNat * 2097152 + a.toNat * 65536 + b.toNat * 2048 + p.toNat * 8 + q.toNat * 4 + s.toNat
  | .amocas d a b p q s => 1811939616 + d.toNat * 2097152 + a.toNat * 65536 + b.toNat * 2048 + p.toNat * 8 + q.toNat * 4 + s.toNat
  | .amofadd d a b p => 1811939650 + d.toNat * 2097152 + a.toNat * 65536 + b.toNat * 2048 + p.toNat * 8
  | .strip d o b p => 1409286144 + d.toNat * 2097152 + o.toNat * 65536 + b.toNat * 2048 + p.toNat
  | .bev k c o => 1476395008 + k.toNat * 2097152 + c.toNat * 65536 + o.toNat
  | .vsetl d a => 2147483888 + d.toNat * 2097152 + a.toNat * 65536
  | .force v => 2147483889 + v.toNat * 2097152
  | .vmat v => 2147483890 + v.toNat * 2097152
  | .vdrop v => 2147483891 + v.toNat * 2097152
  | .vbcast v a t => 2147483652 + v.toNat * 2097152 + a.toNat * 65536 + t.toNat * 16
  | .vget v a b => 2147483893 + v.toNat * 2097152 + a.toNat * 65536 + b.toNat * 2048
  | .vins v a b => 2147483894 + v.toNat * 2097152 + a.toNat * 65536 + b.toNat * 2048
  | .vconf v b => 2147483895 + v.toNat * 2097152 + b.toNat * 2048
  | .vcompact v k b => 2147483896 + v.toNat * 2097152 + k.toNat * 65536 + b.toNat * 2048
  | .mcnt d k => 2147483897 + d.toNat * 2097152 + k.toNat * 65536
  | .mfirst d k => 2147483898 + d.toNat * 2097152 + k.toNat * 65536
  | .mlogLogic k a t b => 2147483899 + k.toNat * 2097152 + a.toNat * 65536 + t.toNat * 2048 + b.toNat * 256
  | .mlogFromVector k v => 2148008187 + k.toNat * 2097152 + v.toNat * 2048
  | .mlogToVector v a => 2148532475 + v.toNat * 2097152 + a.toNat * 65536
  | .vld v a t => 2214592512 + v.toNat * 2097152 + a.toNat * 65536 + t.toNat * 16
  | .vldFf v a t => 2214592513 + v.toNat * 2097152 + a.toNat * 65536 + t.toNat * 16
  | .vldM k a => 2214592738 + k.toNat * 2097152 + a.toNat * 65536
  | .vlds v a b t => 2214592515 + v.toNat * 2097152 + a.toNat * 65536 + b.toNat * 2048 + t.toNat * 16
  | .vldx v a b t => 2214592516 + v.toNat * 2097152 + a.toNat * 65536 + b.toNat * 2048 + t.toNat * 16
  | .vldseg v a n t => 2214592517 + v.toNat * 2097152 + a.toNat * 65536 + n.toNat * 2048 + t.toNat * 16
  | .vldt v a b t => 2214592518 + v.toNat * 2097152 + a.toNat * 65536 + b.toNat * 2048 + t.toNat * 16
  | .vst v a k t => 2281701376 + v.toNat * 2097152 + a.toNat * 65536 + k.toNat * 256 + t.toNat * 16
  | .vsts v a b k t => 2281701377 + v.toNat * 2097152 + a.toNat * 65536 + b.toNat * 2048 + k.toNat * 256 + t.toNat * 16
  | .vstx v a b k t => 2281701378 + v.toNat * 2097152 + a.toNat * 65536 + b.toNat * 2048 + k.toNat * 256 + t.toNat * 16
  | .vstseg v a n k t => 2281701379 + v.toNat * 2097152 + a.toNat * 65536 + n.toNat * 2048 + k.toNat * 256 + t.toNat * 16
  | .vstt v a b k t => 2281701380 + v.toNat * 2097152 + a.toNat * 65536 + b.toNat * 2048 + k.toNat * 256 + t.toNat * 16
  | .vscrAdd v a b k t => 2281701384 + v.toNat * 2097152 + a.toNat * 65536 + b.toNat * 2048 + k.toNat * 256 + t.toNat * 16
  | .vscrMin v a b k t => 2281701385 + v.toNat * 2097152 + a.toNat * 65536 + b.toNat * 2048 + k.toNat * 256 + t.toNat * 16
  | .vscrMax v a b k t => 2281701386 + v.toNat * 2097152 + a.toNat * 65536 + b.toNat * 2048 + k.toNat * 256 + t.toNat * 16
  | .vscrAnd v a b k t => 2281701387 + v.toNat * 2097152 + a.toNat * 65536 + b.toNat * 2048 + k.toNat * 256 + t.toNat * 16
  | .vscrOr v a b k t => 2281701388 + v.toNat * 2097152 + a.toNat * 65536 + b.toNat * 2048 + k.toNat * 256 + t.toNat * 16
  | .vscrXor v a b k t => 2281701389 + v.toNat * 2097152 + a.toNat * 65536 + b.toNat * 2048 + k.toNat * 256 + t.toNat * 16
  | .vredAdd v d k t => 2348810240 + v.toNat * 2097152 + d.toNat * 65536 + k.toNat * 256 + t.toNat * 16
  | .vredMin v d k t => 2348810241 + v.toNat * 2097152 + d.toNat * 65536 + k.toNat * 256 + t.toNat * 16
  | .vredMax v d k t => 2348810242 + v.toNat * 2097152 + d.toNat * 65536 + k.toNat * 256 + t.toNat * 16
  | .vredAnd v d k t => 2348810243 + v.toNat * 2097152 + d.toNat * 65536 + k.toNat * 256 + t.toNat * 16
  | .vredOr v d k t => 2348810244 + v.toNat * 2097152 + d.toNat * 65536 + k.toNat * 256 + t.toNat * 16
  | .vredXor v d k t => 2348810245 + v.toNat * 2097152 + d.toNat * 65536 + k.toNat * 256 + t.toNat * 16
  | .vrediMin v d k t => 2348810248 + v.toNat * 2097152 + d.toNat * 65536 + k.toNat * 256 + t.toNat * 16
  | .vrediMax v d k t => 2348810249 + v.toNat * 2097152 + d.toNat * 65536 + k.toNat * 256 + t.toNat * 16
  | .weave o => 2415919104 + o.toNat
  | .mldw s a t => 2684354560 + s.toNat * 2097152 + a.toNat * 65536 + t.toNat * 16
  | .mrow v a n s u q t => 2684354561 + v.toNat * 2097152 + a.toNat * 65536 + n.toNat * 16384 + s.toNat * 8192 + u.toNat * 2048 + q.toNat * 256 + t.toNat * 16
  | .mrowAcc v a n s u q t => 2684354562 + v.toNat * 2097152 + a.toNat * 65536 + n.toNat * 16384 + s.toNat * 8192 + u.toNat * 2048 + q.toNat * 256 + t.toNat * 16
  | .mslide v a n s u q t => 2684354563 + v.toNat * 2097152 + a.toNat * 65536 + n.toNat * 16384 + s.toNat * 8192 + u.toNat * 2048 + q.toNat * 256 + t.toNat * 16
  | .mslideAcc v a n s u q t => 2684354564 + v.toNat * 2097152 + a.toNat * 65536 + n.toNat * 16384 + s.toNat * 8192 + u.toNat * 2048 + q.toNat * 256 + t.toNat * 16
  | .mzero n a b => 2684354805 + n.toNat * 2097152 + a.toNat * 65536 + b.toNat * 2048
  | .mread v a n s q r t => 2684354566 + v.toNat * 2097152 + a.toNat * 65536 + n.toNat * 16384 + s.toNat * 8192 + q.toNat * 2048 + r.toNat * 256 + t.toNat * 16
  | .mscale q a => 2684354807 + q.toNat * 2097152 + a.toNat * 65536
  | .acopy d a b k => 2952790016 + d.toNat * 2097152 + a.toNat * 65536 + b.toNat * 2048 + k.toNat
  | .acopyt d a b k => 2952790048 + d.toNat * 2097152 + a.toNat * 65536 + b.toNat * 2048 + k.toNat
  | .evwait d k => 2952790080 + d.toNat * 2097152 + k.toNat
  | .evclr d k => 2952790112 + d.toNat * 2097152 + k.toNat
  | .uiret => 2952790144
  | .icinv a b => 2952790176 + a.toNat * 65536 + b.toNat * 2048
  | .panpost d a b => 3019898880 + d.toNat * 2097152 + a.toNat * 65536 + b.toNat * 2048
  | .panget d a b => 3019898912 + d.toNat * 2097152 + a.toNat * 65536 + b.toNat * 2048
  | .pandone d => 3019898944 + d.toNat * 2097152
  | .wmpub a b => 3019898976 + a.toNat * 65536 + b.toNat * 2048
  | .depset a b => 3019899008 + a.toNat * 65536 + b.toNat * 2048
  | .depdec a => 3019899040 + a.toNat * 65536
  | .qsend d a b => 3019899072 + d.toNat * 2097152 + a.toNat * 65536 + b.toNat * 2048
  | .qsendNb d a b => 3019899073 + d.toNat * 2097152 + a.toNat * 65536 + b.toNat * 2048
  | .qsendA d a b => 3019899074 + d.toNat * 2097152 + a.toNat * 65536 + b.toNat * 2048
  | .qtake d a b => 3019899104 + d.toNat * 2097152 + a.toNat * 65536 + b.toNat * 2048
  | .gjoin d a => 3087007744 + d.toNat * 2097152 + a.toNat * 65536
  | .gleave d a => 3087007776 + d.toNat * 2097152 + a.toNat * 65536
  | .bara d a => 3087007808 + d.toNat * 2097152 + a.toNat * 65536
  | .barw d a n => 3087007840 + d.toNat * 2097152 + a.toNat * 65536 + n.toNat * 2048
  | .barinfo d a b => 3087007872 + d.toNat * 2097152 + a.toNat * 65536 + b.toNat * 2048
  | .rld d a s => 3154116608 + d.toNat * 2097152 + a.toNat * 65536 + s.toNat
  | .rst d a s => 3154116640 + d.toNat * 2097152 + a.toNat * 65536 + s.toNat
  | .ramo d a b o => 3154116672 + d.toNat * 2097152 + a.toNat * 65536 + b.toNat * 2048 + o.toNat * 4
  | .rred v a q k => 3154116704 + v.toNat * 2097152 + a.toNat * 65536 + q.toNat * 2048 + k.toNat * 4
  | .ecall => 4227858432
  | .hcall => 4227858464
  | .trap a => 4227858496 + a.toNat * 65536
  | .iret => 4227858528
  | .ctxsave => 4227858560
  | .ctxload a => 4227858592 + a.toNat * 65536
  | .halt a => 4227858624 + a.toNat * 65536
  | .brk => 4227858656
  | .tlbinv a b => 4227858688 + a.toNat * 65536 + b.toNat * 2048
  | .framegive d a b => 4227858720 + d.toNat * 2097152 + a.toNat * 65536 + b.toNat * 2048
  | .keyload d a b => 4227858752 + d.toNat * 2097152 + a.toNat * 65536 + b.toNat * 2048
  | .tmark a b => 4227858784 + a.toNat * 65536 + b.toNat * 2048
  | .moduleReset => 0
  | .measExtend _ => 0
  | .chunkCommit _ => 0
  | .chunkReservation _ => 0
  | .pass _ => 0
  | .capturePass _ => 0
  | .elementGroupCompletion _ => 0
  | .trapEntry _ _ _ => 0
  | .userInterrupt _ => 0
  | .preEmption _ => 0
  | .wakeDelivery _ _ => 0
  | .parkCExpiry _ => 0
  | .yieldExpiry _ => 0
  | .waitvWake _ => 0
  | .barwRelease _ => 0
  | .watermarkWaitEnd _ => 0
  | .pangetRemoteWait _ => 0
  | .randTimeout _ => 0
  | .powerGating _ => 0
  | .gatingExit _ => 0
  | .frequencyStep _ _ => 0
  | .relockEnd _ => 0
  | .temperatureReading _ _ => 0
  | .powerMeasurement _ => 0
  | .tcritTimeout _ => 0
  | .vminTimeout _ => 0
  | .processMonitor _ _ => 0
  | .watchdogExpiry _ _ => 0
  | .dump _ => 0
  | .engineOperation _ _ => 0
  | .engineCompletion _ _ => 0
  | .tileLoadCompletion _ _ => 0
  | .barrierArrival _ => 0
  | .rldRequest _ _ _ _ => 0
  | .rstPacket _ _ _ _ _ => 0
  | .ramoRequest _ _ _ _ _ _ => 0
  | .rredPacket _ _ _ _ _ _ _ => 0
  | .remoteResponse _ _ _ => 0
  | .remoteAcknowledgement _ _ _ => 0
  | .remoteTimeout _ _ => 0
  | .remoteItem _ _ _ _ _ => 0
  | .itemAcceptance _ _ => 0
  | .abortNotice _ _ => 0
  | .resetNotice _ _ => 0
  | .hostWrite _ _ _ => 0
  | .cxlMemAccess _ _ _ => 0
  | .dbhi _ _ => 0
  | .functionLevelReset _ => 0
  | .vfreset _ => 0
  | .preempt _ _ => 0
  | .vfPreempt _ _ => 0
  | .sramsize _ _ => 0
  | .flim _ _ => 0
  | .ownerTableWrite _ _ => 0
  | .fstatAccess _ => 0
  | .capAreaWrite _ _ _ => 0
  | .vrsWrite _ _ _ => 0
  | .chklimWrite _ _ => 0
  | .evfWrite _ _ => 0
  | .ctxbaseWrite _ _ => 0
  | .laneCounterRead _ _ => 0
  | .traceSample _ => 0
  | .registerWrite _ _ => 0
  | .matrixStepCompletion _ _ => 0
  | .reservationReturn _ _ => 0
  | .entropyHealthChange _ _ => 0

/-- Bytes to a number, the byte at the lowest address least significant (R7). -/
def bytesToNat : List Byte → Nat
  | [] => 0
  | b :: bs => b.toNat + 256 * bytesToNat bs

/-- Decode the four bytes of a control word as memory holds them (R7). -/
def decodeBytes (bs : List Byte) : Except Reject Instr := decode (bytesToNat (bs.take 4))

/-- The instruction that the decoder reads from a word whose bits are numbered as the opcode table numbers them: a
control word is one 32-bit word, stored little-endian. -/
def decodeTableWord (nbits w : Nat) : Option Instr :=
  if nbits = 32 then
    match decodeBytes [BitVec.ofNat 8 w, BitVec.ofNat 8 (w / 256), BitVec.ofNat 8 (w / 65536),
      BitVec.ofNat 8 (w / 16777216)] with
    | .ok i => some i
    | .error _ => none
  else none

end Sys2Proof
end

