-- ==== Sys2Proof/Config.lean ====
section
/-! DEFINITION. Config.lean: what the module fixes and the values that the spec leaves open. An opaque constant has no
body: nothing can be proved of it, so a claim holds whatever it is. -/

namespace Sys2Proof.Config

/-- Core cycles beyond those that the spec counts: for a result, in a wait, and at a core at rest (R104 bounds no stall); log entry 3. -/
opaque extraCycles : Nat → Nat

/-- How long after the IOD timer the reference timer of compute die d starts (R133, R137), in 2^−32 nominal cycles; log entry 3. -/
opaque dieLead : Nat → Nat

/-- The rate of die d's oscillator (R133: within 100 ppm, as IOD's is); log entry 3. -/
opaque dieRate : Nat → Nat

/-- The entropy source's draws (R127); log entry 4. -/
opaque entropy : Nat → Word

/-- The bit that a signature bank sets for an item, 0 to 511: a hash fixed for the module and not architectural (R278);
log entry 5. -/
opaque sigHash : Nat → Nat → Nat

/-- The arbiter slice of a 16 MiB region: a hash that is not architectural (R280); log entry 5. -/
opaque regionSlice : Nat → Nat

/-- Whether an access uses the old translation where a changed entry has not been invalidated (R352); log entry 6. -/
opaque oldTranslation : Nat → Bool

/-- Whether a fetch sees the old 8-byte word of code that a store has changed since (R49); log entry 7. -/
opaque oldCode : Nat → Bool

/-- A byte of a line whose key slot has been loaded anew (R358): line, key generation, offset; log entry 8. -/
opaque decrypted : Nat → Nat → Nat → BitVec 8

/-- SHA-384 as the security block computes it (R426, R427): a function that the spec names and does not define; log
entry 9. -/
opaque sha384 : List (BitVec 8) → BitVec 384

/-- The check code over the opaque sections of a context image (R392); log entry 10. -/
opaque checkCode : List (BitVec 8) → BitVec 32

/-- A byte of the opaque sections of a context image (R392, R393), from the number of the save whose state they hold, the section and
the byte's index; log entry 10. -/
opaque opaqueByte : Nat → Nat → Nat → BitVec 8

/-- The value that a destination byte of a self-overlapping shaped copy receives (R258): the value read before the copy,
or the one after earlier writes of the same copy; log entry 11. -/
opaque shapedOverlap : Nat → Bool

/-- How many more events a VF performance counter has counted when it is read: caches, walkers and run-ahead decide it (R362);
log entry 14. -/
opaque counterRead : Nat → Word

/-- A doubleword of the report on a poisoned group record, whose layout no rule gives (R342); log entry 84. -/
opaque groupReport : Nat → Word

/-- The type field of a journal EVENT record (R420 names no values); log entry 18. -/
opaque eventCode : Nat → Word

/-- A byte of the descriptor that a PANGET copies in a replay, or of the record that BARINFO writes there, which no journal record holds (R420, R423);
log entry 129. -/
opaque replayDescriptor : Nat → Nat → BitVec 8

/-- The CRC-32 over x1 to x31 of a journal EVENT record (R420 names no polynomial); log entry 18. -/
opaque crc32 : List Word → BitVec 32

/-- The stage-1 image in flash, which the spec does not give (R426); log entry 9. -/
opaque stage1Image : List (BitVec 8)

/-- Where in steward 0's memory the security block loads it (R426); log entry 9. -/
opaque stage1Base : Nat

/-- The rail that feeds a core (R429 gives no list); log entry 99. -/
opaque railOf : Nat → Nat

/-- The value that a damaged copy of TMAX in flash reads as (R428); log entry 13. -/
opaque flashTmax : Nat → Nat

/-- Whether the signature of the stage-1 image that a later module reset reads verifies (R426); log entry 9. -/
opaque signatureOk : Nat → Bool

/-- Whether a reading of a monitor falls where the governor's next 25 MHz are due (R429: every 100 µs down, every 1 ms up);
log entry 3. -/
opaque governorDue : Nat → Bool

end Sys2Proof.Config
end

