-- ==== Sys2Proof/Machine/State.lean ====
section
/-! DEFINITION. Machine/State.lean: the state of one TZ-880 module, whole and as plain data: the thread that moves next
and its core unpacked, every other thread and core in sparse lists, memory, the IOD units and the outside world's
pending inputs. -/

namespace Sys2Proof.Machine

open Sys2Proof

/-- Why the machine stops with no next state. -/
inductive Fault where
  /-- Every core is held in reset because the signature of the stage-1 image failed (R426 item 3). Raised by step while
  State.holdReset is set. Safe: the hardware issues nothing there either. -/
  | heldInReset
  deriving DecidableEq, Repr

/-- Why an instruction has no meaning. -/
inductive Refusal where
  /-- The instruction's arm of exec is not written yet. Raised by exec. Safe: it stops. -/
  | notModelled (mnemonic : String)
  deriving DecidableEq, Repr

/-- Privilege levels (R383). -/
inductive Level where
  /-- User. -/
  | u
  /-- Supervisor. -/
  | s
  /-- Hypervisor. -/
  | h
  deriving DecidableEq, Repr

/-- The states of a hardware thread (R87). -/
inductive RunState where
  /-- Runs no context. -/
  | halted
  /-- Issues when ready. -/
  | running
  /-- Waits for a wake token. -/
  | parked
  /-- Waits in PARK.C for its count. -/
  | timed
  /-- Waits in NAP. -/
  | napping
  deriving DecidableEq, Repr

/-- Where a vector or mask value comes from (R140, R142): fixed lanes, a field of a leaf slot, a node of the graph, or a
capture region. Types are the codes of R39. -/
inductive VRef where
  /-- A resident value: its lanes in lane form. -/
  | res (lanes : List Lane)
  /-- Field f of the leaf in a slot. -/
  | leaf (slot field : Nat)
  /-- A node by its number. -/
  | node (id : Nat)
  /-- What node src of a split region wrote, collected by the MERGE numbered id (R181). -/
  | merged (id src : Nat)
  /-- A capture region at a virtual address. -/
  | capt (base : Word)
  deriving DecidableEq, Repr

/-- The instruction that a force-time fault on a value is blamed on (R155): kind, position and address. -/
structure Blame where
  /-- KIND: 0 none, 1 binding, 2 sink, 3 node. -/
  kind : Nat
  /-- POS: the node's index in its block. -/
  pos : Nat
  /-- BPC: the blamed instruction's address. -/
  pc : Nat
  deriving DecidableEq, Repr

/-- A value that a register names: its source, length, type code and blame (R140). -/
structure Val where
  /-- Where the value comes from. -/
  ref : VRef
  /-- Its length in elements. -/
  len : Nat
  /-- Its type code (R39). -/
  ty : Nat
  /-- Who is blamed for it. -/
  blame : Blame
  deriving DecidableEq, Repr

/-- A vector or mask register: its value and its dirty bit (R140, R394). -/
structure VReg where
  /-- The value it names. -/
  val : Val
  /-- Set by every change of value; cleared by CTXSAVE and CTXLOAD (R394). -/
  dirty : Bool
  deriving DecidableEq, Repr

/-- A shape record (R197). -/
structure Shape where
  /-- Counts of the four dimensions, innermost first. -/
  n0 : Nat
  /-- Count 1. -/
  n1 : Nat
  /-- Count 2. -/
  n2 : Nat
  /-- Count 3. -/
  n3 : Nat
  /-- Byte strides. -/
  s0 : Word
  /-- Stride 1. -/
  s1 : Word
  /-- Stride 2. -/
  s2 : Word
  /-- Stride 3. -/
  s3 : Word
  deriving DecidableEq, Repr

/-- The addressing of a stream, after its base (R195). -/
inductive Layout where
  /-- Unit stride. -/
  | unit
  /-- A byte stride. -/
  | strided (stride : Word)
  /-- Indices from a value. -/
  | indexed (idx : Val)
  /-- Segments of n fields. -/
  | seg (n : Nat)
  /-- A shape record. -/
  | shape (r : Shape)
  deriving DecidableEq, Repr

/-- A bound leaf (R141, R194). -/
structure Leaf where
  /-- Slot number 0 to 7. -/
  slot : Nat
  /-- Order of binding. -/
  seq : Nat
  /-- Base address. -/
  base : Word
  /-- Addressing. -/
  lay : Layout
  /-- Element type code. -/
  ty : Nat
  /-- Length in elements. -/
  len : Nat
  /-- Fault-only-first (R157). -/
  ff : Bool
  /-- Address of the binding instruction. -/
  bpc : Nat
  deriving DecidableEq, Repr

/-- A source operand of a node, fixed at the WEAVE (R142, R165). -/
inductive Operand where
  /-- A vector register's or weft's value. -/
  | val (v : Val)
  /-- Code 48: imm16, sign-extended. -/
  | imm (i : BitVec 16)
  /-- Code 49: imm16 as the high half of an F32. -/
  | immHi (i : BitVec 16)
  /-- Codes 50 to 57: a captured x value. -/
  | slot (x : Word)
  /-- Code 58: the element index. -/
  | index
  /-- Code 59: zero. -/
  | zero
  /-- Code 60: the head of the queue of the XQSEND node with this number. -/
  | head (send : Nat)
  deriving DecidableEq, Repr

/-- The path condition of a node inside a split region (R180, R181): the SPLIT's number, the selector and the path. -/
structure PathCond where
  /-- Number of the SPLIT node. -/
  split : Nat
  /-- The selector operand. -/
  sel : Operand
  /-- True for a mask selector, false for an N32 one. -/
  isMask : Bool
  /-- The node's path. -/
  path : Nat
  deriving DecidableEq, Repr

/-- A pending node (R142, R164). -/
structure Node where
  /-- Its number; numbers rise in WEAVE order. -/
  id : Nat
  /-- Element opcode (R57). -/
  eop : Nat
  /-- First type code. -/
  ty : Nat
  /-- Second type code, with 1111 already read as the first type where the opcode takes two (R40). -/
  ty2 : Nat
  /-- Type code of the result. -/
  rty : Nat
  /-- Rounding mode, resolved at the WEAVE (R81): the values of R41 for the node's kind. -/
  rnd : Nat
  /-- Saturate. -/
  sat : Bool
  /-- FTZ at the WEAVE (R81). -/
  ftz : Bool
  /-- Immediate field, for compares and wide uses. -/
  imm : BitVec 16
  /-- Length (R142). -/
  len : Nat
  /-- Governing mask at the WEAVE; none is m0 (R164). -/
  mask : Option Val
  /-- Path condition, inside a split region. -/
  path : Option PathCond
  /-- First source. -/
  a : Operand
  /-- Second source. -/
  b : Operand
  /-- Third source. -/
  c : Operand
  /-- The value that the destination named just before (R164); none where no element can need it. -/
  prior : Option Val
  /-- In a split region: what its destination named before it in block order, other paths' nodes included. An element of another path keeps
  that (R181). -/
  below : Option Val
  /-- The values that a MERGE collects (R181): of each register and weft that a path has written, that of the last writer. -/
  more : List Val
  /-- Address of the WEAVE. -/
  wpc : Nat
  /-- Index in its block. -/
  pos : Nat
  deriving DecidableEq, Repr

/-- A panel grant held by a thread (R320, R323). -/
structure Grant where
  /-- First row. -/
  row0 : Nat
  /-- First column. -/
  col0 : Nat
  /-- Rows. -/
  rows : Nat
  /-- Columns. -/
  cols : Nat
  /-- TID of the panel. -/
  tid : Nat
  deriving DecidableEq, Repr

/-- One lane accumulator of a reduction: EMPTY or a value (R84). -/
abbrev Acc := Option Lane

/-- What a stopped pass keeps for its resumption (R156, R158, R185): the accumulators, the index of a VREDI, and the
queue heads by XQSEND node. -/
structure Saved where
  /-- The accumulators, by lane for VRED.ADD, one otherwise. -/
  acc : List Acc
  /-- Lowest index of the chosen value of a VREDI. -/
  idx : Nat
  /-- Queue heads. -/
  heads : List (Nat × Lane)
  /-- Lanes collected for register-file sinks, newest first, by register. -/
  lanes : List (Nat × List Lane)
  /-- Capture regions allotted to the pass, by register (R156). -/
  regions : List (Nat × Word × Nat)
  /-- Nodes whose values earlier passes of the forcing instruction have captured: node, base and size (R146, R220). -/
  cuts : List (Nat × Word × Nat)
  deriving DecidableEq, Repr

/-- A STRIP that has taken its effects and still waits (R328). -/
structure StripWait where
  /-- Its address. -/
  pc : Nat
  /-- The level at which it executes. -/
  lvl : Level
  /-- It executes in a user-interrupt handler. -/
  ui : Bool
  /-- Its slot. -/
  slot : Nat
  /-- The bound that it waits for. -/
  bound : Nat
  /-- Its target. -/
  target : Nat
  deriving DecidableEq, Repr

/-- The state that a chunk's register checkpoint holds (R277), except tile rows, which a chunk logs. -/
structure Arch where
  /-- x0 to x31; x0 is never read (R22). -/
  x : Vector Word 32
  /-- Address of the next instruction. -/
  pc : Nat
  /-- FCTL (R78): FTZ in bit 3, RM in bits 2 to 0. -/
  fctl : BitVec 4
  /-- FSTAT (R79). -/
  fstat : BitVec 6
  /-- FXRM (R80). -/
  fxrm : BitVec 2
  /-- CMPTHR (R222). -/
  cmpthr : BitVec 5
  /-- CHKLIM.LIM (R292). -/
  chkLim : Nat
  /-- CHKLIM.EFF (R292). -/
  chkEff : Nat
  /-- EFF from the next chunk, where a write has set it (R292). -/
  chkNext : Option Nat
  /-- EVF.DONE (R254). -/
  done : BitVec 16
  /-- EVF.FAULT (R254). -/
  efault : BitVec 16
  /-- Status words of e0 to e15 (R255). -/
  evs : Vector Word 16
  /-- UIVEC (R266). -/
  uivec : Word
  /-- UICTL.EN (R266). -/
  uien : BitVec 16
  /-- UICTL.ACTIVE (R266). -/
  uiactive : Bool
  /-- UIPC (R266). -/
  uipc : Word
  /-- Shadow copies of x28 to x31 (R267). -/
  shadow : Vector Word 4
  /-- VL.LEN (R191). -/
  vlLen : Nat
  /-- VL.GRANT (R191). -/
  vlGrant : Nat
  /-- VRS: restart indices of LC0 to LC3 (R219). -/
  vrs : Vector Nat 4
  /-- CAPBASE (R152). -/
  capBase : Word
  /-- CAPSIZE (R152). -/
  capSize : Word
  /-- v0 to v31 (R187). -/
  v : Vector VReg 32
  /-- m0 to m7; entry 0 is never read (R189). -/
  m : Vector VReg 8
  /-- q0 to q7 (R225). -/
  q : Vector (BitVec 32) 8
  /-- Pending nodes, oldest first (R145). -/
  nodes : List Node
  /-- Bound leaves (R141). -/
  leaves : List Leaf
  /-- Number of the next node or binding. -/
  nextId : Nat
  /-- The wake token (R88). -/
  token : Bool
  /-- Strip counter SC (R327). -/
  sc : Word
  /-- Strip element count STE (R327). -/
  ste : Nat
  /-- Base list: register and advance (R327). -/
  bases : List (Reg × Word)
  /-- STRIPs that have taken their effects and still wait, at most one of a level and its user-interrupt state (R328). -/
  strip : List StripWait
  /-- Partial state of a stopped pass (R156). -/
  saved : Option Saved
  /-- Nodes whose values the passes before the next instruction have captured for it alone (R146): node, base and size. -/
  inner : List (Nat × Word × Nat)
  /-- The sequence number of the leaf whose slot the binding at hand frees, by captures of more than one pass (R141). -/
  freeing : Option Nat
  deriving DecidableEq, Repr

/-- What leaves a chunk at its commit (R284): a message to another unit. -/
inductive Msg where
  /-- A wake: sender, target, image address, sender's level and VFID (R94). -/
  | wake (src dst : Nat) (image : Word) (lvl : Level) (vf : Nat)
  /-- A posted panel enters its queue (R316). -/
  | post (panel : Nat)
  /-- Set a counter (R324). -/
  | depset (ctr : Nat) (v : BitVec 32)
  /-- Decrement a counter (R324). -/
  | depdec (ctr : Nat)
  /-- Set a watermark slot (R329). -/
  | wmpub (slot : Nat) (v : Word)
  /-- An item for a local queue, with the thread that waits for acceptance (R325). -/
  | item (queue : Nat) (lo hi : Word) (answer : Option Nat)
  /-- An item for another module (R325): sender and its VFID, and whether the sender waits for the answer. -/
  | remoteItem (tid vf designator : Nat) (lo hi : Word) (answer : Bool)
  /-- A remote store packet (R369). -/
  | rst (tid : Nat) (da : Word) (size : Nat) (data : Word)
  /-- A remote load or atomic request (R369): kind 0 load, else atomic. -/
  | request (tid : Nat) (da : Word) (kind size : Nat) (operand expected : Word)
  /-- A reduce-store packet (R370). -/
  | rred (tid : Nat) (da : Word) (ty : Nat) (scale : BitVec 32) (mask : BitVec 16) (data : List (BitVec 32))
  /-- An engine operation may start (R253). -/
  | engine (tid k : Nat)
  /-- A response to RLD or RAMO (R371): sender module and VFID, cause (0 where it was performed), value. -/
  | response (smod svf cause : Nat) (value : Word)
  /-- An acknowledgement of RST or RRED (R371): sender module and VFID, cause, offset. -/
  | ack (smod svf cause : Nat) (offset : Word)
  /-- The answer to an item of another module (R325): accepted or discarded. -/
  | accepted (smod svf : Nat) (ok : Bool)
  /-- A reserved place returns to the sender of a reservation entry, or its reservation is reclaimed (R325, R375). -/
  | placeBack (entry : Nat) (reclaimed : Bool)
  /-- An abort notice to a peer module for a collective (R374, R375). -/
  | abort (peer ident : Nat)
  /-- A reset notice for a VF to every module (R375). -/
  | resetNotice (vf : Nat)
  /-- What a CXL.mem read returns to the host (R377). -/
  | hostRead (pa : Nat) (data : List Byte)
  deriving DecidableEq, Repr

/-- An exact dyadic number: sign, magnitude and exponent of 2. -/
structure Dy where
  /-- Negative. -/
  neg : Bool
  /-- Magnitude. -/
  mant : Nat
  /-- Exponent of 2. -/
  exp : Int
  deriving DecidableEq, Repr

/-- A weight slot (R225): operating type, scale, values by row, checksum column, owner, poison. -/
structure Slot where
  /-- Owner, a THREADID. -/
  owner : Option Nat
  /-- Operating type code. -/
  ty : Nat
  /-- Tile scale, an F32 pattern. -/
  scale : BitVec 32
  /-- W[k][n] as codes of the operating type, by row. -/
  w : List (List (BitVec 16))
  /-- The checksum column (R229). -/
  check : List Dy
  /-- Address of the line that poisoned it (R231). -/
  poison : Option Word
  /-- Body still to be streamed in: its codes by row, and the poisoned line met (R231). -/
  loading : Option (List (List (BitVec 16)) × Option Word)
  deriving DecidableEq, Repr

/-- A translation that a chunk has used (R360): VFID, ASID and 64 KiB page of the address, and the page's place. -/
structure PageUse where
  /-- VFID. -/
  vf : Nat
  /-- ASID. -/
  asid : BitVec 16
  /-- Virtual address div 65,536. -/
  page : Nat
  /-- Bytes of the page that the entry maps. -/
  size : Nat
  /-- Physical address div 65,536. -/
  place : Nat
  /-- The leaf entry. -/
  leaf : Word
  /-- The FOT entry. -/
  fot : Nat
  deriving DecidableEq, Repr

/-- A chunk (R270 to R279): its commit-buffer bytes, device-register writes, items, count, messages and undo records. -/
structure Chunk where
  /-- Uncommitted bytes, newest first (R274); keys are memory keys. -/
  writes : List (Nat × Byte)
  /-- Uncommitted device-register writes, oldest first (R378). -/
  dev : List (Nat × Word)
  /-- Read items of part L: 64-byte lines (R278). -/
  readL : List Nat
  /-- Read items of part G: 4 KiB granules. -/
  readG : List Nat
  /-- Write items of part L. -/
  writeL : List Nat
  /-- Write items of part G. -/
  writeG : List Nat
  /-- Control instructions executed (R273). -/
  count : Nat
  /-- Messages that leave at commit, oldest first. -/
  out : List Msg
  /-- Prior contents of tile rows written (R226). -/
  undo : List (Nat × List (BitVec 32))
  /-- The rows among these that a change of the holding gave up (R101), which take no history (R276). -/
  given : List Nat
  /-- Prior contents of weight slots loaded (R226). -/
  slots : List (Nat × Slot)
  /-- The thread's later vector reads come at its point or after it (R297, R301, R305). -/
  fenced : Bool
  /-- The tile rows and scale registers whose error it has ended (R243). -/
  mended : List Nat
  /-- The translations that it has used (R159, R360). -/
  used : List PageUse
  /-- Commit-buffer entries it holds: the 64-byte lines of its uncommitted bytes (R274). -/
  lines : List Nat
  /-- Vector and mask registers that it has logged in the history buffer (R276): 0 to 31 are v0 to v31, 33 to 39 m1 to m7. -/
  hist : List Nat
  /-- The cluster holders before and after its first renegotiation, the tile rows held before it, and the hand-over that waited then
  (R101, R277). -/
  share : Option (Vector (BitVec 2) 4 × Vector (BitVec 2) 4 × Nat × Option (Vector (BitVec 2) 4))
  /-- One of its history records holds an uncorrectable error (R286). -/
  badHist : Bool
  /-- VREAD and RESPONSE records of values that it has obtained, oldest first: kind and content. They enter the journal as it commits
  (R422). -/
  recs : List (Nat × List Word)
  /-- Address of its first instruction. -/
  pc : Nat
  /-- Its number (R270). -/
  num : Nat
  deriving DecidableEq, Repr

/-- What an agent's squashes have led to (R287): for passes and engine operations; a thread keeps its own in Thread. -/
structure Effort where
  /-- Consecutive squashes of its oldest chunk. -/
  squashes : Nat
  /-- Chunks committed in a row with no squash. -/
  streak : Nat
  /-- True while it holds its reservation. -/
  reserving : Bool
  /-- Slices that it reserves before its next attempt. -/
  wanted : List Nat
  deriving DecidableEq, Repr

/-- What a stalled thread waits for (R87). -/
inductive Stall where
  /-- Not stalled. -/
  | none
  /-- WAITV on a 64-byte line; true once a commit has written it (R306). -/
  | waitv (line : Nat) (hit : Bool)
  /-- EVWAIT on a flag (R260). -/
  | evwait (k : Nat)
  /-- ACOPY waiting for its flag or for room (R253). -/
  | engine (k : Nat)
  /-- BARA held by the unit until its phase is open (R334, R337): group, phase, FCUR sent, destination. -/
  | bara (group : Nat) (phase : Int) (fcur : Nat) (d : Reg)
  /-- BARW on a group until every AP reaches k (R338): group, k, destination. -/
  | barw (group : Nat) (k : Int) (d : Reg)
  /-- STRIP on a slot until it reaches a bound (R328). -/
  | strip (slot : Nat) (bound : Nat)
  /-- QSEND for a free place (R325). -/
  | qsend (designator : Nat)
  /-- QSEND.A for the target's answer, into a register (R325). -/
  | answer (d : Reg)
  /-- RAND for a healthy source, with the time of its die at which it began to wait (R127). -/
  | rand (since : Nat)
  /-- RLD or RAMO for its response, into a register; width in bytes (R369). -/
  | remote (d : Reg) (width : Nat) (da : Word)
  /-- STRL.DOM for acknowledgements (R304). -/
  | acks
  /-- WAKE for the target's acknowledgement, into a register; the status once it has come (R94). -/
  | wakeAck (d : Reg) (st : Option Nat)
  /-- YIELD, with the core cycles that its wait still has (R98). -/
  | yield (left : Nat)
  /-- PANGET for a panel of its own die, with the core cycles that its wait still has (R321). -/
  | panget (left : Nat)
  /-- MLDW for the commit of the sibling's chunk that loads the same weight slot (R226). -/
  | slot (i : Nat)
  /-- Operands that are not ready yet: core cycles until they are (R87, R128). -/
  | late (left : Nat)
  /-- FRAMEGIVE between setting TRANSIT of a frame and writing its new entry (R359): frame, entry, destination. -/
  | frame (i : Nat) (entry : Word) (d : Reg)
  deriving DecidableEq, Repr

/-- The operation of a reduction or scatter (R201 to R204). -/
inductive RedOp where
  /-- Sum. -/
  | add
  /-- Least. -/
  | min
  /-- Greatest. -/
  | max
  /-- Bitwise and. -/
  | and
  /-- Bitwise or. -/
  | or
  /-- Bitwise exclusive or. -/
  | xor
  deriving DecidableEq, Repr

/-- What a sink does with its elements (R147). -/
inductive SinkKind where
  /-- Store by a layout at a base. -/
  | store (base : Word) (lay : Layout)
  /-- Scatter-reduce into TCM. -/
  | scatter (op : RedOp) (base : Word) (idx : Val)
  /-- Reduce into an x register; with an index for VREDI. -/
  | reduce (op : RedOp) (d : Reg) (withIdx : Bool)
  /-- Remote reduce store. -/
  | remote (da : Word) (scale : BitVec 32)
  /-- Capture into a region for a register: 0 to 31 are v0 to v31, 33 to 39 are m1 to m7; 64 + i is node i's value (R146). -/
  | capture (base : Word) (reg : Nat)
  /-- The register file, for a register. -/
  | resident (reg : Nat)
  deriving DecidableEq, Repr

/-- A sink of a pass: its kind, its source values (several fields for a segment store), length, mask and blame. -/
structure Sink where
  /-- What it does. -/
  kind : SinkKind
  /-- Its source values. -/
  srcs : List Val
  /-- Its length. -/
  len : Nat
  /-- Its governing mask; none is m0. -/
  mask : Option Val
  /-- Whom its faults are blamed on. -/
  blame : Blame
  deriving DecidableEq, Repr

/-- Occupancy that an element places on the unit classes of a lane (R167, R213). -/
structure Occ where
  /-- FMA. -/
  fma : Nat
  /-- ALU. -/
  alu : Nat
  /-- SFU. -/
  sfu : Nat
  /-- CVT. -/
  cvt : Nat
  /-- Cross-lane-queue port. -/
  xq : Nat
  deriving DecidableEq, Repr

/-- An element in a lane: its occupancy, the part of it that nodes read by captures alone place (R224), its activity, and the latency of its path of a
split region (R215). -/
structure LaneElem where
  /-- Occupancy. -/
  occ : Occ
  /-- Its part for captures alone. -/
  side : Occ
  /-- Some sink takes it. -/
  active : Bool
  /-- Core cycles from its SPLIT to the collector. -/
  depth : Nat
  deriving DecidableEq, Repr

/-- What one lane has issued in a pass: elements, occupancy, and its cycles as USEFUL and MASKED (R213, R223). -/
structure LaneWork where
  /-- Elements issued. -/
  n : Nat
  /-- Their occupancy. -/
  occ : Occ
  /-- The part of it that nodes read by captures alone place (R224). -/
  side : Occ
  /-- USEFUL cycles. -/
  useful : Nat
  /-- MASKED cycles. -/
  masked : Nat
  /-- The time that its elements have taken on the physical cluster of the time, in twelfths of a cycle (R102, R213). -/
  span : Nat
  /-- The time at which its last element has issued, waits before it included, in twelfths of a cycle after the start-up. -/
  ends : Nat
  /-- The time at which its last element has begun to issue. -/
  last : Nat
  /-- The latest time at which one of its elements leaves its path of a split region (R215). -/
  far : Nat
  /-- Elements that leave their paths before an earlier one does: the time, and that at which the collector releases them (R215). -/
  out : List (Nat × Nat)
  deriving DecidableEq, Repr

/-- The record of a pass's completed groups: the 64 lanes by 16c + l, the runs of skipped groups by cluster (R221), and
the active elements of held groups (R222) as cluster, row and occupancy, newest first. -/
structure Tally where
  /-- Lane work that is not empty, by lane. -/
  work : List (Nat × LaneWork)
  /-- Length of each cluster's present run of skipped groups. -/
  runs : Vector Nat 4
  /-- Elements of held groups. -/
  held : List (Nat × Nat × Occ)
  deriving DecidableEq, Repr

/-- A trap to be taken (R384): cause, address, blame and stream words. -/
structure Trap where
  /-- Cause code. -/
  cause : Nat
  /-- TRAPADDR or HTRAPADDR. -/
  addr : Word
  /-- TRAPBLAME. -/
  blame : Word
  /-- TRAPSTREAM. -/
  stream : Word
  deriving DecidableEq, Repr

/-- A pass that the thread has forced and that is not complete (R148). -/
structure Pass where
  /-- Its sinks, numbered from 0. -/
  sinks : List Sink
  /-- Its length. -/
  len : Nat
  /-- True for a pass that runs only to capture (R149). -/
  captureOnly : Bool
  /-- True when the forcing instruction completes with the pass; false when it runs again after it. -/
  completes : Bool
  /-- Address of the forcing instruction. -/
  fpc : Nat
  /-- First element of each cluster that is still to run. -/
  start : Vector Nat 4
  /-- First element of the next element group of each cluster (R216). -/
  next : Vector Nat 4
  /-- The time at which its last group has issued, in twelfths of a cycle after the start-up. -/
  clock : Nat
  /-- The groups of the open chunk, newest first: first element, and the time, as for the clock, at which the last of its elements has issued. Until
  then it is in flight (R217, R218). -/
  ends : List (Nat × Nat)
  /-- The watchpoint traps of groups that it has worked (R411, R412): the trap, the group's first element, and the watchpoint: 0 and 1 for data, 2 for
  the element. It stops once such a group is complete. -/
  watch : List (Trap × Nat × Nat)
  /-- Chunks that it has sealed (R270). -/
  chunks : Nat
  /-- CYC in the cycle in which it started (R223). -/
  began : Word
  /-- Accumulators, queue heads and what else a stop keeps. -/
  st : Saved
  /-- FTZ at the forcing instruction (R81). -/
  ftz : Bool
  /-- True for a pass that uses the cross-lane queue (R185). -/
  xq : Bool
  /-- The lane-cycle record of its completed groups (R223). -/
  tally : Tally
  /-- Core cycles of discarded groups, by cluster: they count as STALLED (R224). -/
  lost : Vector Nat 4
  /-- First elements of the groups that its masks exclude, as the stream controller has read them at the pass's start (R221); none before
  it has. -/
  skipped : Option (List Nat)
  deriving DecidableEq, Repr

/-- What a completed pass keeps for its last chunk until that commits (R159): the state that it was evaluated in, the pass at the
chunk's start, and the element at which the chunk ended. -/
structure Redo where
  /-- The graph, the leaves and the captures. -/
  a : Arch
  /-- The pass at the chunk's start. -/
  p : Pass
  /-- The chunk's end vector (R217). -/
  stop : Vector Nat 4
  /-- The chunk; none while it is squashed and has still to run again. -/
  chunk : Option Chunk
  /-- The translations that it keeps until it commits (R159). -/
  kept : List PageUse
  /-- The level at which the pass was forced. -/
  lvl : Level
  /-- Flags of its groups: they enter FSTAT as it commits (R82). -/
  flags : BitVec 6
  /-- USEFUL and MASKED slots of its groups, by cluster (R224). -/
  slots : Vector (Nat × Nat) 4
  /-- The pass after the chunk, where one that has run again has closed before the end vector: the rest follows its commit (R287). -/
  rest : Option Pass
  /-- Its squashes (R287). -/
  effort : Effort
  /-- FENCE.VS or FENCE.ALL has been executed since (R301). -/
  vs : Bool
  /-- FENCE.VV or FENCE.ALL has been executed since (R301). -/
  vv : Bool
  deriving DecidableEq, Repr

/-- One hardware thread (R87): its checkpointed state, its checkpoint, its chunks, its system registers. -/
structure Thread where
  /-- The checkpointed state. -/
  a : Arch
  /-- The checkpoint taken at the start of its oldest uncommitted chunk (R277). -/
  ckpt : Arch
  /-- The checkpoint taken at the start of the open chunk. -/
  ckptOpen : Arch
  /-- Thread state (R87). -/
  run : RunState
  /-- Privilege level (R383). -/
  lvl : Level
  /-- What it is stalled on (R87). -/
  stall : Stall
  /-- The pass it has forced (R148). -/
  pass : Option Pass
  /-- The open chunk. -/
  chunk : Chunk
  /-- The closed chunk that waits to commit (R270). -/
  closed : Option Chunk
  /-- The sealed chunk of its passes that waits to commit (R148). -/
  sealed : Option Chunk
  /-- The pass as it stood at the start of its open pass chunk, and FSTAT then (R277, R284). -/
  passCkpt : Option (Pass × BitVec 6)
  /-- A completed pass whose last chunk has not committed (R148, R159). -/
  redo : Option Redo
  /-- Address of an instruction that has issued and is to issue again, since it stalled, waited or did not fit: it has passed its PC
  breakpoint (R410). -/
  begun : Option Nat
  /-- CYC from which an instruction that reads a register may issue; 32 is the divider, 33 every instruction (R128). -/
  late : List (Nat × Word)
  /-- A preparatory pass of an instruction has ended: that instruction runs again before anything else is taken (R267). -/
  prepared : Bool
  /-- Consecutive squashes of its oldest chunk (R287). -/
  squashes : Nat
  /-- Chunks committed in a row with no squash (R287). -/
  streak : Nat
  /-- True while it holds a reservation (R287). -/
  reserving : Bool
  /-- Slices that it reserves before it executes again (R287). -/
  wanted : List Nat
  /-- The same counts for its passes, an agent of their own (R270, R287). -/
  passEffort : Effort
  /-- A RAND draw kept with the checkpoint of the open chunk (R127). -/
  draw : Option Word
  /-- A RAND draw kept with the checkpoint of the closed chunk (R127). -/
  drawOld : Option Word
  /-- Remaining count of a PARK.C that waits (R97). -/
  parkLeft : Option Word
  /-- PARK.Cs that pre-emptions have interrupted, at most one of a level: address, level and the count that is left (R97). -/
  parkKept : List (Nat × Level × Word)
  /-- Event flags that were set when NAP began (R96). -/
  napDone : BitVec 16
  /-- Register that PARK reports into (R93). -/
  parkReg : Reg
  /-- A pre-emption requested by S is pending (R389). -/
  preS : Bool
  /-- A pre-emption requested by H is pending (R389). -/
  preH : Bool
  /-- An asynchronous trap to take at the next boundary (R159, R242, R286). -/
  deferred : Option Trap
  /-- The next instruction ignores PC breakpoints because it follows an IRET (R410). -/
  afterIret : Bool
  /-- Groups it belongs to (R333). -/
  groups : List Nat
  /-- The number of its context (R333; the model's own field): that of the saved context which it was loaded from, a new one where it was loaded from
  none, and 0 after module reset. -/
  ctx : Nat
  /-- Grants it holds (R320). -/
  grants : List Grant
  /-- Remote writes not yet acknowledged (R373). -/
  unacked : Nat
  /-- Domain address and VFID of each of them, oldest first: a report goes to the VF that sent it (R372). -/
  sent : List (Word × Nat)
  /-- CHKSTAT: commits, squashes, false positives, reservations, capacity closures (R293). -/
  chkstat : Vector Word 5
  /-- Lane-cycle counters: cluster c, class k at 5c + k (R52, R407). -/
  lanes : Vector Word 20
  /-- TVEC (R386). -/
  tvec : Word
  /-- TSTATUS (R386). -/
  tstatus : BitVec 8
  /-- TRAPPC (R386). -/
  trappc : Word
  /-- TRAPCAUSE (R386). -/
  trapcause : BitVec 8
  /-- TRAPADDR (R386). -/
  trapaddr : Word
  /-- TRAPBLAME (R155). -/
  trapblame : Word
  /-- TRAPSTREAM (R155). -/
  trapstream : Word
  /-- CTXBASE (R386). -/
  ctxbase : Word
  /-- DUMPBASE (R402). -/
  dumpbase : Word
  /-- PTBASE (R347). -/
  ptbase : Word
  /-- ASID (R347). -/
  asid : BitVec 16
  /-- HVEC (R386). -/
  hvec : Word
  /-- HSTATUS (R386). -/
  hstatus : BitVec 8
  /-- HTRAPPC (R386). -/
  htrappc : Word
  /-- HTRAPCAUSE (R386). -/
  htrapcause : BitVec 8
  /-- HTRAPADDR (R386). -/
  htrapaddr : Word
  /-- VFID (R355). -/
  vfid : Nat
  /-- KEYID (R355). -/
  keyid : Nat
  /-- HPTBASE (R347). -/
  hptbase : Word
  /-- FOTBASE (R354). -/
  fotbase : Word
  deriving DecidableEq, Repr

/-- A matrix step in the array (R241, R242). -/
structure MatStep where
  /-- Issuing thread. -/
  tid : Nat
  /-- Address of the instruction. -/
  pc : Nat
  /-- Global row. -/
  row : Nat
  /-- Activation lanes. -/
  act : List Lane
  /-- Activation type code. -/
  ty : Nat
  /-- Slot number. -/
  slot : Nat
  /-- Activation scale at issue. -/
  scale : BitVec 32
  /-- Accumulate. -/
  acc : Bool
  /-- Number of the chunk that issued it. -/
  num : Nat
  deriving DecidableEq, Repr

/-- A record of the trace ring (R414): four doublewords. -/
structure TraceRec where
  /-- Doubleword 0. -/
  d0 : Word
  /-- Doubleword 1. -/
  d1 : Word
  /-- Doubleword 2. -/
  d2 : Word
  /-- Doubleword 3. -/
  d3 : Word
  deriving DecidableEq, Repr

/-- One core, compute or steward (R11). -/
structure Core where
  /-- FCUR in MHz (R132). -/
  fcur : Nat
  /-- TMAX in MHz (R129). -/
  tmax : Nat
  /-- DEGR (R129). -/
  degr : Nat
  /-- The copy of TMAX in flash (R428). -/
  flashTmax : Nat
  /-- The CRC of its DEGR in flash holds (R428). -/
  flashOk : Bool
  /-- CAP in MHz (R130, R131). -/
  cap : Nat
  /-- CYC (R133). -/
  cyc : Word
  /-- NCYC, the integer part (R133). -/
  nom : Word
  /-- NCYC's 32-bit fraction (R133). -/
  frac : BitVec 32
  /-- A relock in progress: target frequency and the die timer's tick at its start (R134). -/
  relock : Option (Nat × Word)
  /-- A step that waits, and what lowered it (R432): until the core leaves gating (R99), until a relock ends, or until its chunks hold no
  grants (R134). -/
  stepHeld : Option (Nat × Nat)
  /-- Its clock has been stopped by the governor (R429, R431). -/
  off : Bool
  /-- At its last turn neither of its threads could do anything: its clock takes up its die's time when something comes (R133; the
  model's own field, log entry 3). -/
  waits : Bool
  /-- Arrivals in the inbound clock-crossing FIFO during a relock, oldest first (R135). -/
  inbound : List Instr
  /-- Write items of broadcasts during a relock, parts L and G (R136). -/
  sigL : List Nat
  /-- Granule items of the same. -/
  sigG : List Nat
  /-- One of the write lists in the accumulated signature was too long to travel (R285). -/
  sigLong : Bool
  /-- The time of its die to which its clock has run, in 2^−32 nominal cycles (R133). -/
  clock : Nat
  /-- Consecutive core cycles for which the conditions of power gating have held (R99). -/
  idleFor : Nat
  /-- Power-gated (R99). -/
  gated : Bool
  /-- Holders of physical clusters 0 to 3: 0 none, 1 CT0, 2 CT1 (R100). -/
  lc : Vector (BitVec 2) 4
  /-- Holders that take over at the next group-row boundary of a running pass (R101). -/
  lcNext : Option (Vector (BitVec 2) 4)
  /-- Tile rows held by CT0 (R100). -/
  tr0 : Nat
  /-- Tile rows held by CT1 (R100). -/
  tr1 : Nat
  /-- The thread that issued most recently, 0 or 1 (R89). -/
  lastIssue : Option Nat
  /-- VFID of the core's previous context (R361). -/
  tenant : Option Nat
  /-- Tile rows that are not zero, by global row (R225). -/
  tiles : List (Nat × List (BitVec 32))
  /-- Tile rows, and scale registers qj of thread c as 512 + 8c + j, that hold an uncorrectable error (R243). -/
  bad : List Nat
  /-- Weight slot 0. -/
  slot0 : Slot
  /-- Weight slot 1. -/
  slot1 : Slot
  /-- Matrix steps in the array, oldest first. -/
  mat : List MatStep
  /-- Trace-ring records by index (R414). -/
  ring : List (Nat × TraceRec)
  /-- Index of the record written next (R409). -/
  ringNext : Nat
  /-- Times the ring has wrapped (R409). -/
  ringLaps : BitVec 32
  /-- Code words that fetch has cached, by physical address div 8 (R49). -/
  icache : List (Nat × Word)
  /-- It reads TWARN or more, or has been lowered for it: it is raised again only 5 °C below (R429). -/
  warm : Bool
  /-- Health word: LIMIT (R432). -/
  limit : Nat
  /-- Health word: STEPS (R432). -/
  steps : Nat
  /-- Health word: TEMP (R432). -/
  temp : Nat
  deriving DecidableEq, Repr

/-- A posted panel (R313, R316 to R322). -/
structure Panel where
  /-- Entry index. -/
  entry : Nat
  /-- Sequence part of its TID. -/
  seq : Nat
  /-- Its queue. -/
  queue : Nat
  /-- Its descriptor's 128 bytes, TENANT filled in. -/
  desc : List Byte
  /-- Home die (R321). -/
  home : Nat
  /-- Current priority (R318). -/
  prio : Nat
  /-- Grants of panels of higher priority since the last rise (R318). -/
  aged : Nat
  /-- False until its chunk commits. -/
  posted : Bool
  /-- Ready; held otherwise (R317). -/
  ready : Bool
  /-- Order of posting, then of becoming ready (R317, R318). -/
  order : Nat
  /-- Current column band (R319). -/
  band : Nat
  /-- Next row of the band (R319). -/
  row : Nat
  /-- Grants not yet retired. -/
  live : Nat
  /-- Abandoned or poisoned: issues no further grants and never completes (R323, R331). -/
  dead : Bool
  deriving DecidableEq, Repr

/-- A dependence counter (R324). -/
structure Counter where
  /-- Its value. -/
  val : BitVec 32
  /-- Poisoned (R323, R331). -/
  poison : Bool
  /-- It holds an error of its own, which loses every panel that waits on it (R331). -/
  bad : Bool
  deriving DecidableEq, Repr

/-- A watermark slot (R329). -/
structure WmSlot where
  /-- Its value. -/
  val : Word
  /-- Poisoned (R331). -/
  poison : Bool
  deriving DecidableEq, Repr

/-- An item in an item queue: its doublewords, the reservation entry it fills, and a waiting sender (R325). -/
structure Item where
  /-- Low doubleword. -/
  lo : Word
  /-- High doubleword. -/
  hi : Word
  /-- Reservation table entry whose place it holds (R381). -/
  place : Option Nat
  deriving DecidableEq, Repr

/-- A member of a group: THREADID and arrived phase (R333). -/
structure Member where
  /-- THREADID. -/
  tid : Nat
  /-- Arrived phase AP; −1 before phase 0. -/
  ap : Int
  /-- The number of its context while another context has its thread (R333). -/
  away : Option Nat
  deriving DecidableEq, Repr

/-- An arrival logged for open phases (R333, R337). -/
structure Arrival where
  /-- THREADID. -/
  tid : Nat
  /-- COREID. -/
  core : Nat
  /-- FCUR sent with it. -/
  fcur : Nat
  /-- Tick of acceptance on the IOD timer. -/
  tick : Word
  /-- First phase at which it arrives. -/
  lo : Int
  /-- Last phase at which it arrives. -/
  hi : Int
  /-- As for its member. -/
  away : Option Nat
  deriving DecidableEq, Repr

/-- A live group record (R333). -/
structure Group where
  /-- Owner VFID. -/
  owner : Nat
  /-- Members. -/
  members : List Member
  /-- Completed phase CP. -/
  cp : Int
  /-- Arrival log. -/
  log : List Arrival
  /-- The straggler record's phase and entries (R339): THREADID, COREID, FCUR, lateness. -/
  record : Option (Int × List (Nat × Nat × Nat × Word))
  /-- Poisoned (R342). -/
  poison : Bool
  /-- The IOD timer, in 2^−32 nominal cycles, when CP last rose (R337, R338). -/
  rose : Nat
  deriving DecidableEq, Repr

/-- An engine operation (R253, R257, R258). -/
structure EngineOp where
  /-- Issuing thread. -/
  tid : Nat
  /-- Event flag. -/
  k : Nat
  /-- Source address. -/
  src : Word
  /-- Destination address. -/
  dst : Word
  /-- Byte count of ACOPY. -/
  count : Nat
  /-- The two shapes of ACOPYT: source, destination. -/
  shapes : Option (Shape × Shape)
  /-- True once its issuing chunk has committed (R253). -/
  go : Bool
  /-- The status word to deliver, once it has run (R259). -/
  result : Option Word
  /-- Its position in the copy: destination bytes committed (R253, R277). -/
  pos : Nat
  /-- Chunks that it has committed (R270). -/
  chunks : Nat
  /-- The engine chunk that has executed and waits to commit (R253, R270). -/
  chunk : Option Chunk
  /-- What its destination bytes held before it wrote them: an ACOPY reads a source byte as it was before the operation (R257). -/
  was : List (Nat × Byte)
  /-- Its squashes (R287). -/
  effort : Effort
  deriving DecidableEq, Repr

/-- A cached translation (R351): the entry's tags and the leaf. -/
structure TlbEntry where
  /-- The TLB that holds it (R351): the L1 of a core by its number, or, from 256 on, a loom's L2. -/
  holder : Nat
  /-- VFID tag. -/
  vf : Nat
  /-- ASID tag. -/
  asid : BitVec 16
  /-- Root of the walk that made it. -/
  root : Nat
  /-- Page number: virtual address div 65,536. -/
  page : Nat
  /-- The leaf entry. -/
  leaf : Word
  /-- Page size in bytes. -/
  size : Nat
  /-- The FOT entry of the frame, as it was read (R351, R353). -/
  fot : Nat
  deriving DecidableEq, Repr

/-- A journal record: its doublewords and its offset in the ring (R420, R425). -/
structure JRec where
  /-- Its doublewords. -/
  dw : List Word
  /-- Offset of its first byte. -/
  off : Nat
  deriving DecidableEq, Repr

/-- What the opaque sections of a context image stand for (R392, R393). -/
structure Image where
  /-- The checkpointed state at the save: vector and mask registers, graph, leaves, captures, stopped pass. -/
  a : Arch
  /-- The number of its context, as Thread.ctx. -/
  ctx : Nat
  /-- Owned weight slots by number (R244). -/
  slots : List (Nat × Slot)
  deriving DecidableEq, Repr

/-- An error that the module finds by itself, where no access meets it (R286, R331, R342, R363, R405, R428), and what reaches it that no
row of the table names (R427, R429). DESIGN CHOICE (log entry 118): each is an entry of the agenda. -/
inductive Upset where
  /-- In the commit-buffer entry of a line, of the agent with a code of R420; the chunk holds its grants or not (R286). -/
  | buffer (agent line : Nat) (granted : Bool)
  /-- In a history-buffer entry of a thread's chunks, or of the chunk of its pass (R286). -/
  | history (tid : Nat) (ofPass : Bool)
  /-- In a dirty line that is evicted (R363). -/
  | eviction (line : Nat)
  /-- In the entry of a panel, by TID (R331). -/
  | panel (tid : Nat)
  /-- In an item of a queue, by its place from the oldest (R331). -/
  | item (queue place : Nat)
  /-- In a live counter (R331). -/
  | counter (i : Nat)
  /-- In a watermark slot (R331). -/
  | slot (i : Nat)
  /-- In a group record (R342). -/
  | group (g : Nat)
  /-- One that has been corrected (R405, R424). -/
  | corrected
  /-- A reading of a rail's voltage monitor, in mV (R429). -/
  | rail (r mv : Nat)
  /-- The host writes a doorbell's 16 bytes in one step: VFID, low and high doubleword (R380). -/
  | doorbell (vf : Nat) (lo hi : Word)
  /-- In a core's speed-table entry in flash: its DEGR fails its CRC, or its copy of TMAX differs from the fuses (R428). -/
  | flash (core : Nat) (crc : Bool)
  /-- Firmware declares the chain of measured images closed (R427). -/
  | chain
  /-- The lanes of a logical cluster of a thread's pass wait for n core cycles: for SRF data or space, for a bank, or on a full collector
  (R190, R215, R251). -/
  | laneWait (tid c n : Nat)
  /-- The stream controller of a thread's core translates the page of an element ahead of its use (R252, R350): the leaf of a slot. -/
  | runAhead (tid slot e : Nat)
  deriving DecidableEq, Repr

/-- What moves next when the agenda is not empty: an event of the table, one step of a thread, or what has no row. -/
inductive Due where
  /-- An event. -/
  | event (i : Instr)
  /-- A committed register write of a thread acts, before anything else moves (R378); or what an inbound FIFO delivers (R135). -/
  | act (tid : Nat) (i : Instr)
  /-- A packet of this module to itself, with the message that it is, is performed (R369, R373). -/
  | own (m : Msg) (i : Instr)
  /-- The thread with this THREADID moves. -/
  | run (tid : Nat)
  /-- An error that is found, or what else has no row. -/
  | upset (u : Upset)
  deriving DecidableEq, Repr

/-- The module. -/
structure State where
  /-- THREADID of the thread that moves. -/
  cur : Nat
  /-- That thread. -/
  t : Thread
  /-- Its core. -/
  c : Core
  /-- The other threads, by THREADID; an unlisted one is as after reset. -/
  threads : List (Nat × Thread)
  /-- The other cores, by COREID; an unlisted one is as after reset. -/
  cores : List (Nat × Core)
  /-- Memory: bytes that are not zero, by memory key. -/
  mem : List Host.Cell
  /-- Lines that hold an uncorrectable error, by memory key div 64 (R119). -/
  poison : List Nat
  /-- Device registers that differ from their reset value, by physical address (R378). -/
  dev : List (Nat × Word)
  /-- Key generation of each key slot (R358). -/
  keyGen : List (Nat × Nat)
  /-- The loaded keys, by slot: data key and tweak key bytes (R358). -/
  keys : List (Nat × List Byte)
  /-- Key generation under which a line was last written (R358). -/
  lineGen : List (Nat × Nat)
  /-- TLB entries (R351). -/
  tlb : List TlbEntry
  /-- Low bytes of table entries whose A or D bits the present step has set: its end broadcasts them (R349; the model's own field). -/
  marked : List (Nat × Byte)
  /-- Posted panels (R316). -/
  panels : List Panel
  /-- Next sequence number of a TID (R316). DESIGN CHOICE (log entry 96): the first after reset is 0. -/
  nextSeq : Nat
  /-- Order of the next posting or release (R317). -/
  nextOrder : Nat
  /-- Items of the item queues, oldest first (R325). -/
  items : List (Nat × List Item)
  /-- Dependence counters (R324). -/
  counters : List (Nat × Counter)
  /-- Watermark slots (R329). -/
  slots : List (Nat × WmSlot)
  /-- Live group records (R333). -/
  groups : List (Nat × Group)
  /-- Engine operations (R253). -/
  engines : List EngineOp
  /-- Wakes on their way (R94). -/
  wakes : List Msg
  /-- Packets that have left on the fabric, oldest first (R373). -/
  outbound : List Msg
  /-- Free places that this module's tenants hold at queues of other modules, by VFID × 2^21 + designator (R325): the model's
  own record of what the target modules have told it (log entry 17). -/
  credits : List (Nat × Nat)
  /-- How many chunks the agent of each port has performed (R270, R420). -/
  ports : List (Nat × Nat)
  /-- The commit-grant log: agent, chunk number and slices, newest first (R281). -/
  grantLog : List (Nat × Nat × List Nat)
  /-- Slices held by reservations: slice and agent (R287). -/
  held : List (Nat × Nat)
  /-- Times of dies 0 to 3 and of IOD since their reset, in 2^−32 nominal cycles: a reference timer counts 10 nominal cycles to
  a tick (R133). -/
  time : Vector Nat 5
  /-- MEAS (R426). -/
  meas : BitVec 384
  /-- The chain of measured images is closed: MEAS is read-only (R427). -/
  chainClosed : Bool
  /-- Every core held in reset (R426). -/
  holdReset : Bool
  /-- Resets of virtual functions that wait for the answers to items that have left: VFID, and the threads that sent them (R375). -/
  resets : List (Nat × List Nat)
  /-- The last reading of each rail's voltage monitor, in mV (R429). -/
  rails : List (Nat × Nat)
  /-- The last measurement of module power, in W (R429). -/
  power : Nat
  /-- The entropy source passes its health tests (R127). -/
  healthy : Bool
  /-- Draws so far (R127). -/
  draws : Nat
  /-- Slices have stopped granting after a module fault (R406). -/
  stopped : Bool
  /-- The journal (R419). -/
  journal : List JRec
  /-- Journal bytes recorded or consumed (JHEAD, R419). -/
  replayPos : Nat
  /-- A chunk has been granted out of its turn in the replay: the step that did it does not take place (R423; the model's own field). -/
  outOfTurn : Bool
  /-- The agent, its chunk number and the offset of the record of a chunk that in the replay cannot come to its recorded extent, whose step does not take
  place either (R424; the model's own field). -/
  unreached : Option (Nat × Nat × Nat)
  /-- Journal mode in force since module reset: 0 off, 1 record, 2 replay (R419). -/
  jmode : Nat
  /-- Physical base of the journal ring in force (R419). -/
  jbase : Nat
  /-- Size of the journal ring in force, in bytes (R419). -/
  jsize : Nat
  /-- Saved opaque state of context images, newest first; its number is its place from the end (R392, R393). -/
  saves : List Image
  /-- The agenda: what moves next (the model's own field; log entry 2). -/
  agenda : List Due
  /-- Contexts that have been loaded from no save (R333; the model's own field). -/
  fresh : Nat
  /-- The model's own counter of free values used (the model's own field). -/
  free : Nat
  deriving DecidableEq, Repr

/-- Nobody to blame (R155). -/
def Blame.zero : Blame := { kind := 0, pos := 0, pc := 0 }

/-- A resident value of length 0 and type N32 (R187). -/
def Val.empty : Val := { ref := .res [], len := 0, ty := 6, blame := Blame.zero }

/-- A mask of length 0 (R189). -/
def Val.emptyMask : Val := { ref := .res [], len := 0, ty := 14, blame := Blame.zero }

/-- A chunk that holds nothing (R270). -/
def Chunk.empty (pc num : Nat) : Chunk :=
  { writes := [], dev := [], readL := [], readG := [], writeL := [], writeG := [], count := 0, out := [], undo := [],
    given := [],
    slots := [], fenced := false, mended := [], used := [], lines := [], hist := [], share := none, badHist := false, recs := [], pc := pc, num := num }

/-- No squashes yet. -/
def Effort.zero : Effort := { squashes := 0, streak := 0, reserving := false, wanted := [] }

/-- The checkpointed state after module reset, with the program counter given. -/
def Arch.reset (pc : Nat) : Arch :=
  { x := Vector.replicate 32 0, pc := pc, fctl := 0, fstat := 0, fxrm := 0, cmpthr := 0, chkLim := 4096,
    chkEff := 4096, chkNext := none, done := 0, efault := 0, evs := Vector.replicate 16 0, uivec := 0, uien := 0,
    uiactive := false, uipc := 0, shadow := Vector.replicate 4 0, vlLen := 0, vlGrant := 0,
    vrs := Vector.replicate 4 0, capBase := 0, capSize := 0,
    v := Vector.replicate 32 { val := Val.empty, dirty := false },
    m := Vector.replicate 8 { val := Val.emptyMask, dirty := false }, q := Vector.replicate 8 0, nodes := [],
    leaves := [], nextId := 0, token := false, sc := 0, ste := 0, bases := [], strip := [], saved := none, inner := [], freeing := none }

/-- The address of the stage-1 image's entry (R426 names it and gives no value: log entry 12). -/
def entryPc : Nat := 0x100000

/-- A hardware thread after module reset (R87, R426): steward 0 runs at H at the image's entry, every other thread is
HALTED. -/
def Thread.reset (tid : Nat) : Thread :=
  let pc := if tid = 320 then entryPc else 0
  { a := Arch.reset pc, ckpt := Arch.reset pc, ckptOpen := Arch.reset pc,
    run := if tid = 320 then .running else .halted, lvl := if tid = 320 then .h else .u, stall := .none, pass := none,
    chunk := Chunk.empty pc 0, closed := none, sealed := none, passCkpt := none, redo := none, begun := none, late := [],
    prepared := false,
    squashes := 0, streak := 0, reserving := false, wanted := [], passEffort := Effort.zero,
    draw := none, drawOld := none, parkLeft := none, parkKept := [], napDone := 0, parkReg := 0, preS := false, preH := false, deferred := none,
    afterIret := false, groups := [], ctx := 0, grants := [], unacked := 0, sent := [], chkstat := Vector.replicate 5 0,
    lanes := Vector.replicate 20 0, tvec := 0, tstatus := 0, trappc := 0, trapcause := 0, trapaddr := 0,
    trapblame := 0, trapstream := 0, ctxbase := 0, dumpbase := 0, ptbase := 0, asid := 0, hvec := 0, hstatus := 0,
    htrappc := 0, htrapcause := 0, htrapaddr := 0, vfid := 0, keyid := 0, hptbase := 0, fotbase := 0 }

/-- A weight slot after reset: zero and unowned (R225). -/
def Slot.reset : Slot :=
  { owner := none, ty := 0, scale := 0, w := [], check := [], poison := none, loading := none }

/-- A core after module reset (R131, R132): compute cores at 1,000 MHz, stewards at 1,500 MHz. The fused TMAX and the
flash DEGR are log entry 13. -/
def Core.reset (core : Nat) : Core :=
  { fcur := if core < 160 then 1000 else 1500, tmax := 1800, degr := 0, flashTmax := 1800, flashOk := true, cap := 1800, cyc := 0, nom := 0, frac := 0,
    relock := none, stepHeld := none, off := false, waits := decide (core ≠ 160), inbound := [], sigL := [], sigG := [], sigLong := false, clock := 0,
    idleFor := 0, gated := false, lc := Vector.replicate 4 0, lcNext := none, tr0 := 0, tr1 := 0, lastIssue := none, tenant := if core = 160 then some 0 else none, tiles := [],
    bad := [], slot0 := Slot.reset, slot1 := Slot.reset, mat := [], ring := [], ringNext := 0, ringLaps := 0, icache := [],
    warm := false, limit := 0, steps := 0, temp := 0 }

/-- MEAS once the stage-1 image has been measured (R426): SHA-384 over 48 zero bytes and the image's hash. -/
def bootMeas : BitVec 384 :=
  Config.sha384 (List.replicate 48 0 ++
    (List.range 48).map fun i => BitVec.ofNat 8 ((Config.sha384 Config.stage1Image).toNat / 2 ^ (8 * i)))

/-- The module right after reset, its measured boot done (R426, R428): steward 0 is the thread that moves. DESIGN CHOICE (log entry 96):
the first sequence number of a TID is 0. -/
def State.reset : State :=
  { cur := 320, t := Thread.reset 320, c := Core.reset 160, threads := [], cores := [], mem := [], poison := [],
    dev := [], keyGen := [], keys := [], lineGen := [], tlb := [], marked := [], panels := [], nextSeq := 0, nextOrder := 0,
    items := [], counters := [], slots := [], groups := [], engines := [], wakes := [], outbound := [], credits := [], ports := [], grantLog := [],
    held := [], time := Vector.replicate 5 0, meas := bootMeas, chainClosed := false, holdReset := false, resets := [], rails := [], power := 0, healthy := true, draws := 0,
    stopped := false, journal := [], replayPos := 0, outOfTurn := false, unreached := none, jmode := 0,
    jbase := 0, jsize := 0, saves := [], agenda := [], fresh := 0, free := 0 }

end Sys2Proof.Machine
end

