-- ==== Sys2Proof/Machine/Num.lean ====
section
/-! DEFINITION. Machine/Num.lean: numbers to the bit (R62 to R77, R457): formats, exact dyadic arithmetic, one rounding,
conversions and fixed-point rounding. A lane holds every floating-point value as an F32 pattern (R69). -/

namespace Sys2Proof.Machine

open Sys2Proof

/-- Width in bits of a type (R39, R62, R65, R68); a mask element is one bit. -/
def tyBits (t : Nat) : Nat :=
  match t with
  | 0 => 8 | 1 => 16 | 2 => 32 | 3 => 64 | 4 => 8 | 5 => 16 | 6 => 32 | 7 => 64
  | 8 => 32 | 9 => 16 | 10 => 16 | 11 => 8 | 12 => 8 | 13 => 4 | _ => 1

/-- Bytes of an element: 1 for E2M1 and mask (R194, R195). -/
def tyBytes (t : Nat) : Nat := if tyBits t < 8 then 1 else tyBits t / 8

/-- S8 to S64 (R39). -/
def tySigned (t : Nat) : Bool := decide (t < 4)

/-- An integer type (R168). -/
def tyInt (t : Nat) : Bool := decide (t < 8)

/-- A floating-point type (R65). -/
def tyFloat (t : Nat) : Bool := decide (8 ≤ t) && decide (t ≤ 13)

/-- A type with a 64-bit lane form (R62). -/
def tyWide (t : Nat) : Bool := t == 3 || t == 7

/-- The elements that a register holds resident (R187). -/
def residentLimit (t : Nat) : Nat := if tyWide t then 256 else 512

/-- A floating-point format: precision with the hidden bit, exponent of the smallest normal, largest finite value. -/
structure Fmt where
  /-- Precision in bits. -/
  p : Nat
  /-- Exponent of the smallest normal. -/
  emin : Int
  /-- Magnitude of the largest finite value. -/
  maxM : Nat
  /-- Its exponent of 2. -/
  maxE : Int

/-- The formats of R65, R67 and R68. -/
def fmtOf (t : Nat) : Fmt :=
  match t with
  | 9 => { p := 8, emin := -126, maxM := 255, maxE := 120 }
  | 10 => { p := 11, emin := -14, maxM := 2047, maxE := 5 }
  | 11 => { p := 4, emin := -6, maxM := 14, maxE := 5 }
  | 12 => { p := 3, emin := -14, maxM := 7, maxE := 13 }
  | 13 => { p := 2, emin := 0, maxM := 3, maxE := 1 }
  | _ => { p := 24, emin := -126, maxM := 16777215, maxE := 104 }

/-- A number as an operation reads it (R66): NaN (signalling or not), infinity, or finite with a signed zero. -/
inductive Num where
  /-- A NaN. -/
  | nan (signalling : Bool)
  /-- An infinity. -/
  | inf (neg : Bool)
  /-- A finite value. -/
  | fin (d : Dy)
  deriving DecidableEq, Repr

/-- Canonical NaN in F32 (R65). -/
def nan32 : BitVec 32 := 0x7FC00000

/-- Infinity in F32. -/
def inf32 (neg : Bool) : BitVec 32 := if neg then 0xFF800000 else 0x7F800000

/-- Zero in F32. -/
def zero32 (neg : Bool) : BitVec 32 := if neg then 0x80000000 else 0

/-- FSTAT bits (R79). -/
def fNV : BitVec 6 := 1
/-- DZ. -/
def fDZ : BitVec 6 := 2
/-- OF. -/
def fOF : BitVec 6 := 4
/-- UF. -/
def fUF : BitVec 6 := 8
/-- NX. -/
def fNX : BitVec 6 := 16
/-- FXSAT. -/
def fSAT : BitVec 6 := 32

/-- Read an F32 pattern (R66). -/
def readF32 (b : BitVec 32) : Num :=
  let n := b.toNat
  let neg := decide (n / 2147483648 = 1)
  let e := n / 8388608 % 256
  let m := n % 8388608
  if e = 255 then (if m = 0 then .inf neg else .nan (decide (m < 4194304)))
  else if e = 0 then .fin { neg := neg, mant := m, exp := -149 }
  else .fin { neg := neg, mant := m + 8388608, exp := (e : Int) - 150 }

/-- The F32 pattern of a finite value that F32 represents (R66). -/
def writeF32 (d : Dy) : BitVec 32 :=
  let s := if d.neg then 2147483648 else 0
  if d.mant = 0 then BitVec.ofNat 32 s else
  let e : Int := (Nat.log2 d.mant : Int) + d.exp
  if e < -126 then
    BitVec.ofNat 32 (s + d.mant * 2 ^ (d.exp + 149).toNat / 2 ^ (-149 - d.exp).toNat)
  else
    let m := d.mant * 2 ^ (d.exp - (e - 23)).toNat / 2 ^ ((e - 23) - d.exp).toNat
    BitVec.ofNat 32 (s + (e + 127).toNat * 8388608 + (m - 8388608))

/-- Divide a magnitude by 2^s under a mode of R71 (0 RNE, 1 RTZ, 2 RDN, 3 RUP, 4 RMM) and a sign; the flag says inexact. -/
def roundMag (mode : Nat) (neg : Bool) (m s : Nat) : Nat × Bool :=
  let q := m / 2 ^ s
  let r := m % 2 ^ s
  let up : Bool :=
    match mode with
    | 0 => decide (2 * r > 2 ^ s) || (decide (2 * r = 2 ^ s) && decide (q % 2 = 1))
    | 1 => false
    | 2 => neg && decide (r ≠ 0)
    | 3 => !neg && decide (r ≠ 0)
    | _ => decide (2 * r ≥ 2 ^ s)
  if s = 0 then (m, false) else (if up then q + 1 else q, decide (r ≠ 0))

/-- Round a magnitude times a power of two onto the grid whose unit is 2^q. -/
def roundGrid (mode : Nat) (neg : Bool) (m : Nat) (e q : Int) : Nat × Bool :=
  if q ≤ e then (m * 2 ^ (e - q).toNat, false) else roundMag mode neg m (q - e).toNat

/-- Is m1 × 2^e1 greater than m2 × 2^e2? -/
def gtMag (m1 : Nat) (e1 : Int) (m2 : Nat) (e2 : Int) : Bool :=
  decide (m1 * 2 ^ (e1 - e2).toNat > m2 * 2 ^ (e2 - e1).toNat)

/-- The value delivered on overflow (R72), as an F32 pattern. -/
def overflow (t mode : Nat) (sat neg : Bool) : BitVec 32 :=
  let f := fmtOf t
  let big := writeF32 { neg := neg, mant := f.maxM, exp := f.maxE }
  if sat || t == 13 then big
  else if t == 11 then nan32
  else match mode with
    | 1 => big
    | 2 => if neg then inf32 true else big
    | 3 => if neg then big else inf32 false
    | _ => inf32 neg

/-- Round an exact nonzero value once to type t (R71, R72, R77): the F32 pattern of the result and the flags. -/
def roundFp (t mode : Nat) (sat ftz : Bool) (d : Dy) : BitVec 32 × BitVec 6 :=
  let f := fmtOf t
  let e : Int := (Nat.log2 d.mant : Int) + d.exp
  let top : Int := e - (f.p - 1 : Nat)
  let low : Int := f.emin - (f.p - 1 : Nat)
  let un := roundGrid mode d.neg d.mant d.exp top
  let tiny := !(gtMag un.1 top 1 f.emin || (decide (un.1 * 2 ^ (top - f.emin).toNat = 2 ^ (f.emin - top).toNat)))
  if tiny && ftz && !(t == 13) then (zero32 d.neg, fUF ||| fNX) else
  let q := if top < low then low else top
  let r := roundGrid mode d.neg d.mant d.exp q
  if gtMag r.1 q f.maxM f.maxE then (overflow t mode sat d.neg, fOF ||| fNX)
  else (writeF32 { neg := d.neg, mant := r.1, exp := q },
    if r.2 then (if tiny then fUF ||| fNX else fNX) else 0)

/-- Deliver a finite exact value: zero keeps its sign. -/
def deliver (t mode : Nat) (sat ftz : Bool) (d : Dy) : BitVec 32 × BitVec 6 :=
  if d.mant = 0 then (zero32 d.neg, 0) else roundFp t mode sat ftz d

/-- An operand read as type t: under FTZ a tiny one is zero of its sign (R77). -/
def readOp (t : Nat) (ftz : Bool) (b : BitVec 32) : Num :=
  match readF32 b with
  | .fin d =>
    if ftz && !(t == 13) && decide (d.mant ≠ 0) && !(gtMag d.mant d.exp 1 (fmtOf t).emin
        || decide (d.mant * 2 ^ (d.exp - (fmtOf t).emin).toNat = 2 ^ ((fmtOf t).emin - d.exp).toNat))
    then .fin { neg := d.neg, mant := 0, exp := 0 } else .fin d
  | n => n

/-- Signalling NaN operands set NV (R70). -/
def Num.nv : Num → BitVec 6
  | .nan true => fNV
  | _ => 0

/-- Is it a NaN? -/
def Num.isNan : Num → Bool
  | .nan _ => true
  | _ => false

/-- An exact infinite result of type t: the E4M3 rule of R174. -/
def deliverInf (t : Nat) (neg : Bool) : BitVec 32 × BitVec 6 :=
  if t == 11 then (nan32, fNV) else (inf32 neg, 0)

/-- An invalid operation. -/
def invalid : BitVec 32 × BitVec 6 := (nan32, fNV)

/-- The exact sum of two finite values; a zero sum takes its sign from R174. -/
def dyAdd (mode : Nat) (x y : Dy) : Dy :=
  let e := if x.exp < y.exp then x.exp else y.exp
  let a : Int := (x.mant * 2 ^ (x.exp - e).toNat : Nat)
  let b : Int := (y.mant * 2 ^ (y.exp - e).toNat : Nat)
  let s := (if x.neg then -a else a) + (if y.neg then -b else b)
  if s = 0 then
    { neg := if x.mant = 0 ∧ y.mant = 0 ∧ x.neg = y.neg then x.neg else decide (mode = 2), mant := 0, exp := 0 }
  else { neg := decide (s < 0), mant := s.natAbs, exp := e }

/-- The exact product. -/
def dyMul (x y : Dy) : Dy := { neg := x.neg != y.neg, mant := x.mant * y.mant, exp := x.exp + y.exp }

/-- Add two numbers (R174): the general case of FADD, FSUB and the sum of FFMA. -/
def numAdd (t mode : Nat) (sat ftz : Bool) (x y : Num) : BitVec 32 × BitVec 6 :=
  match x, y with
  | .nan a, y => (nan32, (Num.nan a).nv ||| y.nv)
  | x, .nan b => (nan32, x.nv ||| (Num.nan b).nv)
  | .inf a, .inf b => if a = b then deliverInf t a else invalid
  | .inf a, .fin _ => deliverInf t a
  | .fin _, .inf b => deliverInf t b
  | .fin a, .fin b => deliver t mode sat ftz (dyAdd mode a b)

/-- Negate a number. -/
def Num.negate : Num → Num
  | .nan a => .nan a
  | .inf a => .inf (!a)
  | .fin d => .fin { d with neg := !d.neg }

/-- The exact product of two numbers and its flags: 0 × ∞ is invalid. -/
def numMulExact (x y : Num) : Num × BitVec 6 :=
  match x, y with
  | .nan a, y => (.nan false, (Num.nan a).nv ||| y.nv)
  | x, .nan b => (.nan false, x.nv ||| (Num.nan b).nv)
  | .inf a, .inf b => (.inf (a != b), 0)
  | .inf a, .fin d => if d.mant = 0 then (.nan false, fNV) else (.inf (a != d.neg), 0)
  | .fin d, .inf b => if d.mant = 0 then (.nan false, fNV) else (.inf (d.neg != b), 0)
  | .fin a, .fin b => (.fin (dyMul a b), 0)

/-- FMUL (R174). -/
def fpMul (t mode : Nat) (ftz : Bool) (a b : BitVec 32) : BitVec 32 × BitVec 6 :=
  match numMulExact (readOp t ftz a) (readOp t ftz b) with
  | (.nan _, f) => (nan32, f)
  | (.inf n, f) => ((deliverInf t n).1, f ||| (deliverInf t n).2)
  | (.fin d, _) => deliver t mode false ftz d

/-- FADD (R174). -/
def fpAdd (t mode : Nat) (ftz : Bool) (a b : BitVec 32) : BitVec 32 × BitVec 6 :=
  numAdd t mode false ftz (readOp t ftz a) (readOp t ftz b)

/-- FSUB (R174). -/
def fpSub (t mode : Nat) (ftz : Bool) (a b : BitVec 32) : BitVec 32 × BitVec 6 :=
  numAdd t mode false ftz (readOp t ftz a) (readOp t ftz b).negate

/-- FFMA (R174): one rounding of a × b + c. -/
def fpFma (t mode : Nat) (ftz : Bool) (a b c : BitVec 32) : BitVec 32 × BitVec 6 :=
  let p := numMulExact (readOp t ftz a) (readOp t ftz b)
  let r := numAdd t mode false ftz p.1 (readOp t ftz c)
  (r.1, r.2 ||| p.2)

/-- The quotient of two nonzero finite values with its remainder kept as the lowest bit. -/
def dyDiv (x y : Dy) : Dy :=
  let k := 64 + Nat.log2 y.mant
  let n := x.mant * 2 ^ k
  { neg := x.neg != y.neg, mant := 2 * (n / y.mant) + (if n % y.mant = 0 then 0 else 1),
    exp := x.exp - y.exp - (k : Int) - 1 }

/-- FDIV (R174). -/
def numDiv (t mode : Nat) (ftz : Bool) (x y : Num) : BitVec 32 × BitVec 6 :=
  match x, y with
  | .nan a, y => (nan32, (Num.nan a).nv ||| y.nv)
  | x, .nan b => (nan32, x.nv ||| (Num.nan b).nv)
  | .inf _, .inf _ => invalid
  | .inf a, .fin d => deliverInf t (a != d.neg)
  | .fin d, .inf b => (zero32 (d.neg != b), 0)
  | .fin a, .fin b =>
    if b.mant = 0 then (if a.mant = 0 then invalid else (inf32 (a.neg != b.neg), fDZ))
    else if a.mant = 0 then (zero32 (a.neg != b.neg), 0)
    else deliver t mode false ftz (dyDiv a b)

/-- FDIV on patterns. -/
def fpDiv (t mode : Nat) (ftz : Bool) (a b : BitVec 32) : BitVec 32 × BitVec 6 :=
  numDiv t mode ftz (readOp t ftz a) (readOp t ftz b)

/-- FRCP (R176): 1 / a. -/
def fpRcp (t mode : Nat) (ftz : Bool) (a : BitVec 32) : BitVec 32 × BitVec 6 :=
  numDiv t mode ftz (.fin { neg := false, mant := 1, exp := 0 }) (readOp t ftz a)

/-- Integer square root, bit by bit from bit i − 1 down. -/
def isqrtFrom (n : Nat) : Nat → Nat → Nat
  | 0, r => r
  | i + 1, r => if (r + 2 ^ i) * (r + 2 ^ i) ≤ n then isqrtFrom n i (r + 2 ^ i) else isqrtFrom n i r

/-- Integer square root. -/
def isqrt (n : Nat) : Nat := isqrtFrom n (Nat.log2 n / 2 + 1) 0

/-- FSQRT (R174). -/
def fpSqrt (t mode : Nat) (ftz : Bool) (a : BitVec 32) : BitVec 32 × BitVec 6 :=
  match readOp t ftz a with
  | .nan s => (nan32, (Num.nan s).nv)
  | .inf n => if n then invalid else (inf32 false, 0)
  | .fin d =>
    if d.mant = 0 then (zero32 d.neg, 0)
    else if d.neg then invalid
    else
      let odd := (d.exp % 2).toNat
      let n := d.mant * 2 ^ (64 + odd)
      let r := isqrt n
      let e : Int := (d.exp - 64 - (odd : Int)) / 2 - 1
      deliver t mode false ftz { neg := false, mant := 2 * r + (if r * r = n then 0 else 1), exp := e }

/-- Order of two finite values, exactly: −1, 0 or 1; zeros are equal. -/
def dyCmp (x y : Dy) : Int :=
  let e := if x.exp < y.exp then x.exp else y.exp
  let a : Int := (x.mant * 2 ^ (x.exp - e).toNat : Nat)
  let b : Int := (y.mant * 2 ^ (y.exp - e).toNat : Nat)
  let s := (if x.neg then -a else a) - (if y.neg then -b else b)
  if s < 0 then -1 else if s = 0 then 0 else 1

/-- Order of two numbers that are not NaN. -/
def numCmp (x y : Num) : Int :=
  match x, y with
  | .inf a, .inf b => if a = b then 0 else if a then -1 else 1
  | .inf a, _ => if a then -1 else 1
  | _, .inf b => if b then 1 else -1
  | .fin a, .fin b => dyCmp a b
  | _, _ => 0

/-- The sign of a number. -/
def Num.neg : Num → Bool
  | .nan _ => false
  | .inf n => n
  | .fin d => d.neg

/-- The pattern that a read operand stands for: a tiny one under FTZ is zero. -/
def patOf (n : Num) (b : BitVec 32) : BitVec 32 :=
  match n with
  | .fin d => if d.mant = 0 then zero32 d.neg else b
  | _ => b

/-- FMIN and FMAX (R175): −0 below +0; one NaN gives the other operand. -/
def fpMinMax (t : Nat) (ftz max : Bool) (a b : BitVec 32) : BitVec 32 × BitVec 6 :=
  let x := readOp t ftz a
  let y := readOp t ftz b
  let f := x.nv ||| y.nv
  if x.isNan && y.isNan then (nan32, f)
  else if x.isNan then (patOf y b, f)
  else if y.isNan then (patOf x a, f)
  else
    let c := numCmp x y
    let aLess := decide (c < 0) || (decide (c = 0) && x.neg && !y.neg)
    let bLess := decide (c > 0) || (decide (c = 0) && y.neg && !x.neg)
    ((if max then (if aLess then patOf y b else patOf x a) else (if bLess then patOf y b else patOf x a)), f)

/-- FCMP (R178): condition 0 eq, 1 ne, 2 lt, 3 le, 4 un. -/
def fpCmp (t : Nat) (ftz : Bool) (cond : Nat) (a b : BitVec 32) : Bool × BitVec 6 :=
  let x := readOp t ftz a
  let y := readOp t ftz b
  let un := x.isNan || y.isNan
  let c := numCmp x y
  let f := if un && (cond == 2 || cond == 3) then fNV else x.nv ||| y.nv
  match cond with
  | 0 => (!un && decide (c = 0), f)
  | 1 => (un || !decide (c = 0), f)
  | 2 => (!un && decide (c < 0), f)
  | 3 => (!un && decide (c ≤ 0), f)
  | _ => (un, f)

/-- 2^f for a fraction given by its bits, most significant first, in fixed point with 256 fraction bits: cst is
2^(2^−i) for the next bit. -/
def exp2Bits : List Bool → Nat → Nat → Nat
  | [], _, acc => acc
  | b :: bs, cst, acc =>
    exp2Bits bs (isqrt (cst * 2 ^ 256)) (if b then acc * cst / 2 ^ 256 else acc)

/-- The k lowest bits of n, most significant first. -/
def bitsOf (n : Nat) : Nat → List Bool
  | 0 => []
  | k + 1 => decide (n / 2 ^ k % 2 = 1) :: bitsOf n k

/-- FEXP2 (R176): 2^a rounded once. -/
def fpExp2 (t mode : Nat) (ftz : Bool) (a : BitVec 32) : BitVec 32 × BitVec 6 :=
  match readOp t ftz a with
  | .nan s => (nan32, (Num.nan s).nv)
  | .inf n => if n then (zero32 false, 0) else (inf32 false, 0)
  | .fin d =>
    if d.mant = 0 then (writeF32 { neg := false, mant := 1, exp := 0 }, 0)
    else if gtMag d.mant d.exp 1 11 then
      deliver t mode false ftz { neg := false, mant := 3, exp := if d.neg then -4096 else 4096 }
    else
      let k := (-d.exp).toNat
      let v : Int := (d.mant * 2 ^ d.exp.toNat : Nat)
      let w : Int := if d.neg then -v else v
      let n := w / (2 ^ k : Nat)
      let f := (w % (2 ^ k : Nat)).toNat
      if f = 0 then deliver t mode false ftz { neg := false, mant := 1, exp := n }
      else
        let p := exp2Bits (bitsOf f k) (isqrt (2 * 2 ^ 512)) (2 ^ 256)
        deliver t mode false ftz { neg := false, mant := 2 * p + 1, exp := n - 257 }

/-- Fraction bits of log2 y for y in [1, 2) held with 320 fraction bits, by repeated squaring. -/
def log2Bits : Nat → Nat → Nat → Nat
  | 0, _, acc => acc
  | k + 1, y, acc =>
    let z := y * y / 2 ^ 320
    if z ≥ 2 ^ 321 then log2Bits k (z / 2) (2 * acc + 1) else log2Bits k z (2 * acc)

/-- FLOG2 (R176): log2 a rounded once. -/
def fpLog2 (t mode : Nat) (ftz : Bool) (a : BitVec 32) : BitVec 32 × BitVec 6 :=
  match readOp t ftz a with
  | .nan s => (nan32, (Num.nan s).nv)
  | .inf n => if n then invalid else (inf32 false, 0)
  | .fin d =>
    if d.mant = 0 then (inf32 true, fDZ)
    else if d.neg then invalid
    else
      let l := Nat.log2 d.mant
      let n : Int := (l : Int) + d.exp
      if d.mant = 2 ^ l then
        (if n = 0 then (zero32 false, 0) else deliver t mode false ftz { neg := decide (n < 0), mant := n.natAbs, exp := 0 })
      else
        let fr := log2Bits 200 (d.mant * 2 ^ 320 / 2 ^ l) 0
        let tot : Int := n * (2 ^ 200 : Nat) + fr
        deliver t mode false ftz (if tot < 0 then { neg := true, mant := 2 * tot.natAbs - 1, exp := -201 }
          else { neg := false, mant := 2 * tot.natAbs + 1, exp := -201 })

/-- Convert a number to floating-point type t2 (R73, R75, R177); the source is judged for FTZ against t. -/
def fpConvert (t t2 mode : Nat) (sat ftz : Bool) (a : BitVec 32) : BitVec 32 × BitVec 6 :=
  match readOp t ftz a with
  | .nan s => if t2 == 13 then (zero32 false, fNV) else (nan32, (Num.nan s).nv)
  | .inf n =>
    if t2 == 13 then (writeF32 { neg := n, mant := 3, exp := 1 }, fNX)
    else if t2 == 11 then (if sat then (writeF32 { neg := n, mant := 14, exp := 5 }, fNX) else invalid)
    else (inf32 n, 0)
  | .fin d => deliver t2 mode sat ftz d

/-- The least and greatest values of an integer type (R62). -/
def intMin (t : Nat) : Int := if tySigned t then -(2 ^ (tyBits t - 1) : Nat) else 0
/-- The greatest value. -/
def intMax (t : Nat) : Int := if tySigned t then (2 ^ (tyBits t - 1) : Nat) - 1 else (2 ^ tyBits t : Nat) - 1

/-- Hold an integer in the lane form of type t after wrapping (R62, R63). -/
def wrapInt (t : Nat) (i : Int) : Lane :=
  let w := tyBits t
  let p := BitVec.ofInt w i
  let lane32 : BitVec 32 := if tySigned t then p.signExtend 32 else p.setWidth 32
  if tyWide t then p.setWidth 64 else lane32.setWidth 64

/-- SatT (R63): clamp, with FXSAT when the value changes. -/
def satInt (t : Nat) (i : Int) : Lane × BitVec 6 :=
  if i < intMin t then (wrapInt t (intMin t), fSAT)
  else if intMax t < i then (wrapInt t (intMax t), fSAT)
  else (wrapInt t i, 0)

/-- FTOI (R74): t the source type, t2 the integer type. -/
def fpToInt (t t2 mode : Nat) (sat ftz : Bool) (a : BitVec 32) : Lane × BitVec 6 :=
  let bad (neg nan : Bool) : Lane × BitVec 6 :=
    (if sat then (if nan then 0 else wrapInt t2 (if neg then intMin t2 else intMax t2))
     else if tySigned t2 then wrapInt t2 (intMin t2) else wrapInt t2 (intMax t2), fNV)
  match readOp t ftz a with
  | .nan _ => bad false true
  | .inf n => bad n false
  | .fin d =>
    let r := roundGrid mode d.neg d.mant d.exp 0
    let v : Int := if d.neg then -(r.1 : Int) else r.1
    if v < intMin t2 || intMax t2 < v then bad d.neg false
    else (wrapInt t2 v, if r.2 then fNX else 0)

/-- ITOF (R75). -/
def intToFp (t2 mode : Nat) (ftz : Bool) (i : Int) : BitVec 32 × BitVec 6 :=
  deliver t2 mode false ftz { neg := decide (i < 0), mant := i.natAbs, exp := 0 }

/-- RoundFx (R76): modes 0 RNU, 1 RNE, 2 RDN, 3 ROD. -/
def roundFx (a : Int) (s mode : Nat) : Int :=
  if s = 0 then a else
  let q := a / (2 ^ s : Nat)
  let r := (a % (2 ^ s : Nat)).toNat
  let h := 2 ^ (s - 1)
  match mode with
  | 0 => if r ≥ h then q + 1 else q
  | 1 => if r > h ∨ (r = h ∧ q % 2 = 1) then q + 1 else q
  | 3 => if r ≠ 0 then q - q % 2 + 1 else q
  | _ => q

/-- Fit (R457): bring an F32 pattern to narrow type t; no flag. -/
def fit (t : Nat) (b : BitVec 32) : BitVec 32 :=
  if t == 8 || !tyFloat t then b else
  let neg := decide (b.toNat / 2147483648 = 1)
  let sgn := if neg then 2147483648 else 0
  match readF32 b with
  | .nan _ =>
    if t == 13 then 0
    else if t == 11 then BitVec.ofNat 32 (sgn + 0x7FC00000)
    else
      let drop := 24 - (fmtOf t).p
      let m := b.toNat % 8388608 / 2 ^ drop * 2 ^ drop
      let m := if m = 0 then 2 ^ drop else m
      BitVec.ofNat 32 (sgn + 0x7F800000 + m)
  | .inf _ =>
    if t == 13 then writeF32 { neg := neg, mant := 3, exp := 1 }
    else if t == 11 then BitVec.ofNat 32 (sgn + 0x7FC00000) else b
  | .fin d =>
    if d.mant = 0 then b else
    let r := roundFp t 0 false false d
    if t == 11 && r.2 &&& fOF != 0 then BitVec.ofNat 32 (sgn + 0x7FC00000) else r.1

/-- Bits of a mantissa and exponent bias of a narrow format's encoding (R65). -/
def encParams (t : Nat) : Nat × Int :=
  match t with
  | 9 => (7, 127) | 10 => (10, 15) | 11 => (3, 7) | 12 => (2, 15) | 13 => (1, 1) | _ => (23, 127)

/-- The encoding of a lane's value in type t (R65 to R69, R200): exact, because the lane holds a value of t. -/
def toCode (t : Nat) (b : BitVec 32) : BitVec 64 :=
  if t == 8 then b.setWidth 64 else
  let n := b.toNat
  let neg := n / 2147483648
  let mb := (encParams t).1
  let s := neg * 2 ^ (tyBits t - 1)
  match readF32 b with
  | .nan _ => if t == 13 then 0 else if t == 11 then BitVec.ofNat 64 (s + 0x7F)
    else BitVec.ofNat 64 (s + (2 ^ (tyBits t - 1) - 2 ^ mb) + n % 8388608 / 2 ^ (23 - mb))
  | .inf _ => if t == 13 then BitVec.ofNat 64 (s + 7) else if t == 11 then BitVec.ofNat 64 (s + 0x7F)
    else BitVec.ofNat 64 (s + (2 ^ (tyBits t - 1) - 2 ^ mb))
  | .fin d =>
    if d.mant = 0 then BitVec.ofNat 64 s else
    let f := fmtOf t
    let e : Int := (Nat.log2 d.mant : Int) + d.exp
    let low : Int := f.emin - (mb : Int)
    let unit := if e < f.emin then low else e - (mb : Int)
    let m := d.mant * 2 ^ (d.exp - unit).toNat / 2 ^ (unit - d.exp).toNat
    if e < f.emin then BitVec.ofNat 64 (s + m)
    else BitVec.ofNat 64 (s + (e + (encParams t).2).toNat * 2 ^ mb + (m - 2 ^ mb))

/-- The F32 pattern of a code of type t: exact widening (R66 to R69). -/
def fromCode (t : Nat) (c : Nat) : BitVec 32 :=
  if t == 8 then BitVec.ofNat 32 c else
  let w := tyBits t
  let mb := (encParams t).1
  let neg := decide (c / 2 ^ (w - 1) % 2 = 1)
  let sgn := if neg then 2147483648 else 0
  let e := c / 2 ^ mb % 2 ^ (w - 1 - mb)
  let m := c % 2 ^ mb
  let eMax := 2 ^ (w - 1 - mb) - 1
  if t == 11 && e == eMax && m == 7 then BitVec.ofNat 32 (sgn + 0x7FC00000)
  else if !(t == 11) && !(t == 13) && e == eMax then BitVec.ofNat 32 (sgn + 0x7F800000 + m * 2 ^ (23 - mb))
  else
    let bias := (encParams t).2
    if e = 0 then writeF32 { neg := neg, mant := m, exp := 1 - bias - (mb : Int) }
    else writeF32 { neg := neg, mant := m + 2 ^ mb, exp := (e : Int) - bias - (mb : Int) }

/-- The lane form of an element's code as memory holds it (R62, R64, R69). -/
def laneOf (t c : Nat) : Lane :=
  if tyFloat t then (fromCode t c).setWidth 64
  else if tyInt t then wrapInt t c
  else BitVec.ofNat 64 (c % 2)

/-- The code that a store writes for a lane (R200). -/
def codeOf (t : Nat) (l : Lane) : Nat :=
  if tyFloat t then (toCode t (l.setWidth 32)).toNat % 2 ^ tyBits t
  else if tyInt t then l.toNat % 2 ^ tyBits t
  else l.toNat % 2

/-- RoundQ (R239) of the exact real m × 2^e with a sign: modes 0 RNU, 1 RNE, 2 RDN, 3 ROD. -/
def roundQ (d : Dy) (mode : Nat) : Int :=
  let a : Int := (d.mant * 2 ^ d.exp.toNat : Nat)
  roundFx (if d.neg then -a else a) (-d.exp).toNat mode

end Sys2Proof.Machine
end

