-- ==== Sys2Proof/Machine/Store.lean ====
section
/-! DEFINITION. Machine/Store.lean: reading and writing the pieces of State: sparse lists, threads and cores, registers,
memory keys and committed memory (R7, R12, R16, R105, R245, R246, R356). -/

namespace Sys2Proof.Machine

open Sys2Proof

/-- The value of a key in a sorted list; d where the key is not listed. -/
def spGet {α : Type} (d : α) : List (Nat × α) → Nat → α
  | [], _ => d
  | (a, v) :: t, k => if a = k then v else if k < a then d else spGet d t k

/-- Put a value at a key of a sorted list. -/
def spPut {α : Type} : List (Nat × α) → Nat → α → List (Nat × α)
  | [], k, v => [(k, v)]
  | (a, w) :: t, k, v => if a = k then (k, v) :: t else if k < a then (k, v) :: (a, w) :: t else (a, w) :: spPut t k v

/-- Remove a key of a sorted list. -/
def spDel {α : Type} : List (Nat × α) → Nat → List (Nat × α)
  | [], _ => []
  | (a, w) :: t, k => if a = k then t else if k < a then (a, w) :: t else (a, w) :: spDel t k

/-- Put a value, or remove the key where the value is the one that an unlisted key reads as. -/
def spSet {α : Type} [DecidableEq α] (d : α) (l : List (Nat × α)) (k : Nat) (v : α) : List (Nat × α) :=
  if v = d then spDel l k else spPut l k v

/-- The canonical form of memory: keys strictly rising, no byte equal to what an unlisted key reads as. -/
def Memory.wf : List Host.Cell → Bool
  | [] => true
  | [(_, v)] => v != 0
  | (a, v) :: (b, w) :: t => v != 0 && decide (a < b) && Memory.wf ((b, w) :: t)

/-- Insert into a list without repeats. -/
def addItem (l : List Nat) (k : Nat) : List Nat := if l.contains k then l else k :: l

/-- Bit i of a natural number. -/
def bitAt (n i : Nat) : Bool := decide (n / 2 ^ i % 2 = 1)

/-- 1 or 0. -/
def b2n (b : Bool) : Nat := if b then 1 else 0

/-- Bits [i + w − 1 : i] of a word. -/
def fld (v : Word) (i w : Nat) : Nat := v.toNat / 2 ^ i % 2 ^ w

/-- A word from a natural number. -/
def wd (n : Nat) : Word := BitVec.ofNat 64 n

/-- Privilege order: 0 U, 1 S, 2 H (R383). -/
def Level.code : Level → Nat
  | .u => 0
  | .s => 1
  | .h => 2

/-- A level from its code. -/
def levelOf (n : Nat) : Level := if n = 0 then .u else if n = 1 then .s else .h

/-- The core of a thread: threads 2k and 2k + 1 on compute core k, stewards 320 to 335 on cores 160 to 175 (R12). -/
def coreOf (tid : Nat) : Nat := if tid < 320 then tid / 2 else tid - 160

/-- A steward's thread (R12). -/
def isSteward (tid : Nat) : Bool := decide (320 ≤ tid)

/-- The sibling thread on a compute core. -/
def siblingOf (tid : Nat) : Nat := if tid % 2 = 0 then tid + 1 else tid - 1

/-- The die of a core: 40 compute cores to a die; stewards on IOD, die 4 (R12). -/
def dieOf (core : Nat) : Nat := if core < 160 then core / 40 else 4

/-- The loom of a compute core, numbered 5d + l: 8 cores to a loom, 5 looms to a die (R12). -/
def loomOf (core : Nat) : Nat := core / 8

/-- Thread tid of the module. -/
def threadAt (s : State) (tid : Nat) : Thread :=
  if tid = s.cur then s.t else spGet (Thread.reset tid) s.threads tid

/-- Core cid of the module. -/
def coreAt (s : State) (cid : Nat) : Core :=
  if cid = coreOf s.cur then s.c else spGet (Core.reset cid) s.cores cid

/-- Replace thread tid. -/
def putThread (s : State) (tid : Nat) (t : Thread) : State :=
  if tid = s.cur then { s with t := t } else { s with threads := spPut s.threads tid t }

/-- Replace core cid. -/
def putCore (s : State) (cid : Nat) (c : Core) : State :=
  if cid = coreOf s.cur then { s with c := c } else { s with cores := spPut s.cores cid c }

/-- Make tid the thread that moves. -/
def switchTo (s : State) (tid : Nat) : State :=
  if tid = s.cur then s else
    let th := spDel (spPut s.threads s.cur s.t) tid
    if coreOf tid = coreOf s.cur then { s with cur := tid, t := threadAt s tid, threads := th }
    else { s with cur := tid, t := threadAt s tid, threads := th, c := coreAt s (coreOf tid),
                  cores := spDel (spPut s.cores (coreOf s.cur) s.c) (coreOf tid) }

/-- Act as thread tid, then give the turn back. -/
def onThread (s : State) (tid : Nat) (f : State → State) : State := switchTo (f (switchTo s tid)) s.cur

/-- Act as core cid's first thread, then give the turn back. -/
def onCore (s : State) (cid : Nat) (f : State → State) : State :=
  if cid = coreOf s.cur then f s else onThread s (if cid < 160 then 2 * cid else cid + 160) f

/-- The THREADIDs that are not as after reset, the current one among them. -/
def liveTids (s : State) : List Nat := s.cur :: s.threads.map Prod.fst

/-- Ticks of a time in 2^−32 nominal cycles: 10 nominal cycles to a tick (R133). -/
def ticksOf (t : Nat) : Word := wd (t / 42949672960)

/-- The time that the timer of die d has come to in what has been modelled of it; 4 is IOD. -/
def timerOf (s : State) (d : Nat) : Nat := s.time.toList.getD d 0

/-- Parts of a million of the IOD timer's rate at which the timer of die d runs (R133: ±100 ppm each; log entry 3). -/
def rateOf (d : Nat) : Nat := 999800 + Config.dieRate d % 401

/-- The IOD timer when the timer of die d has come to a time. -/
def toIod (d t : Nat) : Nat := if d = 4 then t else Config.dieLead d + t * rateOf d / 1000000

/-- The timer of die d when the IOD timer has come to a time. -/
def toDie (d t : Nat) : Nat := if d = 4 then t else ((t - Config.dieLead d) * 1000000 + rateOf d - 1) / rateOf d

/-- The time of die d: what its own cores have come to, and what the others have (R133; log entry 3). -/
def dieTime (s : State) (d : Nat) : Nat :=
  if timerOf s 4 = 0 then timerOf s d else Nat.max (timerOf s d) (toDie d (timerOf s 4))

/-- The count of the reference timer of die d (R133). -/
def dieTicks (s : State) (d : Nat) : Word := ticksOf (dieTime s d)

/-- The time of die d reaches at least t, and the IOD timer what it is then. -/
def raiseTime (s : State) (d t : Nat) : State :=
  { s with time := (s.time.setIfInBounds d (Nat.max t (timerOf s d))).setIfInBounds 4 (Nat.max (toIod d t) (timerOf s 4)) }

/-- Change the thread that moves. -/
def modT (s : State) (f : Thread → Thread) : State := { s with t := f s.t }

/-- Change its checkpointed state. -/
def modA (s : State) (f : Arch → Arch) : State := { s with t := { s.t with a := f s.t.a } }

/-- X[r]: x0 reads zero (R22, R105). -/
def rd (s : State) (r : Reg) : Word := if r = 0 then 0 else s.t.a.x[r.toNat]'(r.isLt)

/-- X[r] := v: a write to x0 is discarded (R22, R105). -/
def wr (s : State) (r : Reg) (v : Word) : State :=
  if r = 0 then s else { s with t := { s.t with a := { s.t.a with x := s.t.a.x.set r.toNat v r.isLt } } }

/-- Register r + 1 of a pair. -/
def pairOf (r : Reg) : Reg := r + 1

/-- Set the program counter, which wraps as X does. -/
def setPc (s : State) (pc : Nat) : State := { s with t := { s.t with a := { s.t.a with pc := pc % 18446744073709551616 } } }

/-- One more control instruction of the open chunk (R273). -/
def countOne (s : State) : State := { s with t := { s.t with chunk := { s.t.chunk with count := s.t.chunk.count + 1 } } }

/-- The instruction completes and control passes to an address. -/
def goTo (s : State) (pc : Nat) : State := countOne (setPc s pc)

/-- The instruction completes and the next one follows it. -/
def complete (s : State) : State := goTo s (s.t.a.pc + 4)

/-- Use one free value of the model's own counter. -/
def useFree (s : State) : State := { s with free := s.free + 1 }

/-- The key of a byte of a core's TCM (R246). -/
def tcmKey (core off : Nat) : Nat := 4503599627370496 + core * 262144 + off

/-- The key of a byte of a loom's scratchpad (R246). -/
def loomKey (loom off : Nat) : Nat := 9007199254740992 + loom * 4194304 + off

/-- The key of a byte of a die's shared-SRAM window (R246). -/
def sramKey (die off : Nat) : Nat := 18014398509481984 + die * 16777216 + off

/-- A physical address of ribbon memory or the LPDDR-6 tier (R245). -/
def isDram (k : Nat) : Bool :=
  decide (k < 412316860416) || (decide (1099511627776 ≤ k) && decide (k < 4398046511104))

/-- A physical address of the IOD management registers (R378). -/
def isDevice (k : Nat) : Bool := decide (4398046511104 ≤ k) && decide (k < 4398063288320)

/-- A physical address of host memory (R376). -/
def isHostMem (k : Nat) : Bool := decide (8796093022208 ≤ k) && decide (k < 13194139533312)

/-- A byte of committed memory as it stands. -/
def rawByte (s : State) (k : Nat) : Byte := spGet 0 s.mem k

/-- The little-endian number in n bytes given by a reader (R7). -/
def leNat (f : Nat → Byte) : Nat → Nat → Nat
  | _, 0 => 0
  | k, n + 1 => (f k).toNat + 256 * leNat f (k + 1) n

/-- The n bytes of a number, least significant first (R7). -/
def leBytes : Nat → Nat → List Byte
  | 0, _ => []
  | n + 1, v => BitVec.ofNat 8 v :: leBytes n (v / 256)

/-- Pair keys with bytes from a key upward. -/
def keyed : Nat → List Byte → List (Nat × Byte)
  | _, [] => []
  | k, b :: t => (k, b) :: keyed (k + 1) t

/-- The index of a frame in the FOT (R354); none where there is no entry. -/
def fotIndex (k : Nat) : Option Nat :=
  if k < 412316860416 then some (k / 65536)
  else if 1099511627776 ≤ k ∧ k < 4398046511104 then some (6291456 + (k - 1099511627776) / 65536)
  else if 9007199254740992 ≤ k ∧ k < 9007199254740992 + 83886080 then
    let o := k - 9007199254740992
    some (56623104 + 16 * (o / 4194304) + o % 4194304 / 262144)
  else if 18014398509481984 ≤ k ∧ k < 18014398509481984 + 67108864 then
    let o := k - 18014398509481984
    some (56623424 + 256 * (o / 16777216) + o % 16777216 / 65536)
  else none

/-- The entry of the FOT with an index, as memory holds it (R353). It keeps its content whatever becomes of the key slot of its own frame (DESIGN
CHOICE, log entry 146). -/
def fotEntry (s : State) (fot i : Nat) : Nat := leNat (rawByte s) (fot + 8 * i) 8

/-- The key slot of a line (R356): the KEYID of its frame. -/
def keySlot (s : State) (k : Nat) : Nat :=
  match fotIndex k with
  | some i => fotEntry s (fld s.t.fotbase 16 34 * 65536) i % 8192
  | none => 0

/-- Does the line still decrypt under its slot's key (R358)? -/
def lineFresh (s : State) (k : Nat) : Bool :=
  s.keyGen.isEmpty || !isDram k || spGet 0 s.lineGen (k / 64) == spGet 0 s.keyGen (keySlot s k)

/-- A byte of committed memory: unpredictable where the line's key slot has been loaded anew (R358). -/
def memByte (s : State) (k : Nat) : Byte :=
  if lineFresh s k then rawByte s k
  else Config.decrypted (k / 64) (spGet 0 s.keyGen (keySlot s k)) (k % 64)

/-- Write a run of bytes into a list of cells. -/
def putBytes (m : List Host.Cell) : List (Nat × Byte) → List Host.Cell
  | [] => m
  | (k, b) :: t => putBytes (spSet 0 m k b) t

/-- Bring a line to its slot's present key before a part of it is written (R356, R358). -/
def renewLine (s : State) (k : Nat) : State :=
  if lineFresh s k then s else
    let base := k / 64 * 64
    { s with mem := putBytes s.mem ((List.range 64).map fun i => (base + i, memByte s (base + i))),
             lineGen := spSet 0 s.lineGen (k / 64) (spGet 0 s.keyGen (keySlot s k)) }

/-- Write one byte of committed memory. -/
def pokeByte (s : State) (k : Nat) (b : Byte) : State :=
  let s1 := renewLine s k
  { s1 with mem := spSet 0 s1.mem k b }

/-- Write bytes of committed memory, first to last. -/
def pokeAll (s : State) : List (Nat × Byte) → State
  | [] => s
  | (k, b) :: t => pokeAll (pokeByte s k b) t

/-- Set a byte range of committed memory to zero and clear its poison and key age: the scrub of a frame or the zeroing of
a local window. -/
def scrub (s : State) (k n : Nat) : State :=
  { s with mem := s.mem.filter fun c => !(decide (k ≤ c.1) && decide (c.1 < k + n)),
           poison := s.poison.filter fun l => !(decide (k / 64 ≤ l) && decide (l < (k + n) / 64)),
           lineGen := s.lineGen.filter fun c => !(decide (k / 64 ≤ c.1) && decide (c.1 < (k + n) / 64)) }

end Sys2Proof.Machine
end

