-- ==== Sys2Proof/Machine/Dev.lean ====
section
/-! DEFINITION. Machine/Dev.lean: the IOD management registers (R378 to R382, R409, R417, R419, R432): which addresses are
assigned, their reset values, the bits that a plain write changes, and what a read returns. -/

namespace Sys2Proof.Machine

open Sys2Proof

/-- Ones in bits hi to lo. -/
def ones (hi lo : Nat) : Nat := 2 ^ (hi + 1) - 2 ^ lo

/-- Reset value and writable bits of a register of the module control page (R379). The module has all 32 rails (DESIGN CHOICE, log entry 147). -/
def moduleReg (o : Nat) : Option (Nat × Nat) :=
  if o < 0x28 then some (0, 0)
  else if o = 0x28 then some (0, ones 5 0)
  else if o = 0x30 then some (0, ones 63 63 + ones 9 0)
  else if o < 0x58 then some (0, ones 4 0)
  else if o = 0x1000 then some (2400, ones 15 0)
  else if o = 0x1008 then some (95, ones 7 0)
  else if o = 0x1010 then some (110, ones 7 0)
  else if 0x1018 ≤ o ∧ o < 0x1118 then some (0, ones 15 0)
  else if 0x1200 ≤ o ∧ o < 0x1700 then some (1800, ones 11 0)
  else none

/-- The same of a VF register page (R380). -/
def vfReg (o : Nat) : Option (Nat × Nat) :=
  if o = 0 ∨ o = 8 then some (0, ones 63 0)
  else if o = 0x10 then some (0, ones 20 0)
  else if o = 0x18 ∨ o = 0x20 then some (0, 0)
  else if o = 0x28 then some (0, ones 63 63 + ones 9 0)
  else if o = 0x30 ∨ o = 0x38 then some (0, ones 49 12)
  else if o = 0x40 then some (0, 3)
  else none

/-- The same of a debug block (R409); SKIP1 is written apart. -/
def debugReg (o : Nat) : Option (Nat × Nat) :=
  if o < 0x20 then some (0, ones 63 61 + ones 51 2)
  else if o = 0x20 ∨ o = 0x30 then some (0, ones 51 0)
  else if o = 0x28 ∨ o = 0x38 then some (0, ones 63 57 + ones 5 0)
  else if o = 0x40 then some (0, ones 63 61 + ones 30 0)
  else if o = 0x48 then some (0xFE, ones 47 32 + ones 8 1)
  else if o < 0x100 then some (0, 0)
  else none

/-- The same of the journal registers (R419, R424, R425); flash gives MODE, BASE and SIZE as 0 (log entry 12). -/
def journalReg (o : Nat) : Option (Nat × Nat) :=
  if o = 0 then some (0, 3)
  else if o = 8 then some (0, ones 49 16)
  else if o = 0x10 then some (0, ones 36 16)
  else if o = 0x18 ∨ o = 0x20 ∨ (0x40 ≤ o ∧ o < 0x60) then some (0, 0)
  else none

/-- The same of a doubleword of a queue attribute entry (R381). -/
def queueReg (j : Nat) : Option (Nat × Nat) :=
  if j = 0 then some (0x1007F, ones 32 16 + ones 11 10 + ones 8 8 + ones 6 0)
  else if j = 1 then some (0, ones 63 63 + ones 9 0)
  else some (0, 0)

/-- Reset value and writable bits of the register at a physical address; none where the map assigns nothing (R378). -/
def devReg (pa : Nat) : Option (Nat × Nat) :=
  let o := pa - 0x40000000000
  if pa % 8 ≠ 0 ∨ !isDevice pa then none
  else if o < 0x2000 then moduleReg o
  else if 0x100000 ≤ o ∧ o < 0x500000 then (if o % 0x10000 ≤ 64 then some (0, 0) else none)
  else if 0x500000 ≤ o ∧ o < 0x540000 then vfReg (o % 0x1000)
  else if 0x600000 ≤ o ∧ o < 0x615000 then debugReg (o % 0x100)
  else if 0x700000 ≤ o ∧ o < 0x9C0000 then some (0, 0)
  else if 0xA00000 ≤ o ∧ o < 0xA01000 then journalReg (o - 0xA00000)
  else if 0xB00000 ≤ o ∧ o < 0xB00580 then some (0, 0)
  else if 0xC00000 ≤ o ∧ o < 0xC10000 then queueReg (o % 64 / 8)
  else if 0xC10000 ≤ o ∧ o < 0xC20000 then
    (if o % 16 = 0 then some (0, ones 63 62 + ones 55 48 + ones 37 32 + ones 26 16 + ones 9 0) else some (0, 0))
  else if 0xC20000 ≤ o ∧ o < 0xC20300 then some (0x7F7F7F7F7F7F7F7F, 0x7F7F7F7F7F7F7F7F)
  else if 0xC40000 ≤ o ∧ o < 0xC50000 then
    (if o % 16 = 0 then some (0, ones 63 63 + ones 37 32 + ones 21 16 + ones 10 0) else some (0, ones 49 12))
  else if 0xC50000 ≤ o ∧ o < 0xC60000 then
    (let j := o % 256
     if j = 0 then some (0, ones 63 63 + ones 37 0) else if j = 8 then some (0, ones 9 0)
     else if j = 0x10 then some (0, ones 49 3) else if 0x20 ≤ j ∧ j < 0xB0 then some (0, ones 63 0) else some (0, 0))
  else if 0xC60000 ≤ o ∧ o < 0xC62400 then some (0, ones 63 63 + ones 23 0)
  else none

/-- The stored value of a register. -/
def devGet (s : State) (pa : Nat) : Word :=
  spGet (wd ((devReg pa).map Prod.fst |>.getD 0)) s.dev pa

/-- Store a value in a register. -/
def devPut (s : State) (pa : Nat) (v : Word) : State :=
  { s with dev := spSet (wd ((devReg pa).map Prod.fst |>.getD 0)) s.dev pa v }

/-- A plain write follows the Access column (R4): only writable bits change. -/
def devPlain (s : State) (pa : Nat) (v : Word) : State :=
  match devReg pa with
  | none => s
  | some (_, m) => devPut s pa ((devGet s pa &&& ~~~(wd m)) ||| (v &&& wd m))

/-- Add one to a counting register, which wraps. -/
def devBump (s : State) (pa : Nat) : State := devPut s pa (devGet s pa + 1)

/-- Register addresses: the module control page. -/
def paModule (o : Nat) : Nat := 0x40000000000 + o
/-- A VF's register page. -/
def paVf (vf o : Nat) : Nat := 0x40000500000 + 0x1000 * vf + o
/-- A thread's debug block. -/
def paDebug (tid o : Nat) : Nat := 0x40000600000 + 0x100 * tid + o
/-- A queue's attribute entry. -/
def paQueue (q j : Nat) : Nat := 0x40000C00000 + 64 * q + 8 * j
/-- A sender reservation entry. -/
def paSender (i j : Nat) : Nat := 0x40000C10000 + 16 * i + 8 * j
/-- A VF's counter page. -/
def paCount (vf o : Nat) : Nat := 0x40000100000 + 0x10000 * vf + o

/-- DEVID.MODULE, from the boot configuration in flash (R103; log entry 12). -/
def moduleNo : Nat := 0

/-- A queue's OWNER (R381). -/
def qOwner (s : State) (q : Nat) : Nat := fld (devGet s (paQueue q 0)) 0 7
/-- KIND: 0 panel queue, 1 item queue. -/
def qKind (s : State) (q : Nat) : Nat := fld (devGet s (paQueue q 0)) 8 1
/-- HOME. -/
def qHome (s : State) (q : Nat) : Nat := fld (devGet s (paQueue q 0)) 10 2
/-- CAP: 0 and values above 65,536 are read as 65,536. -/
def qCap (s : State) (q : Nat) : Nat :=
  let c := fld (devGet s (paQueue q 0)) 16 17
  if c = 0 ∨ 65536 < c then 65536 else c

/-- The items of a queue. -/
def qItems (s : State) (q : Nat) : List Item := spGet [] s.items q

/-- Entries that a queue holds now (R312, R381): 8 items to an entry. -/
def qHeld (s : State) (q : Nat) : Nat :=
  (s.panels.filter fun p => p.queue == q).length + ((qItems s q).length + 7) / 8

/-- Entries of the task unit's pool in use (R312). -/
def poolUsed (s : State) : Nat :=
  s.panels.length + (s.items.map fun e => (e.2.length + 7) / 8).foldl (· + ·) 0

/-- Reserved places of entry i now holding items (R381). -/
def inUse (s : State) (i : Nat) : Nat :=
  (s.items.map fun e => (e.2.filter fun it => it.place == some i).length).foldl (· + ·) 0

/-- The owner byte of a block (R381): off is 0 up for counters, 0x100 up for slots, 0x200 up for groups. -/
def ownerByte (s : State) (off : Nat) : Nat :=
  (devGet s (0x40000C20000 + off / 8 * 8)).toNat / 2 ^ (8 * (off % 8)) % 128

/-- Owner of a counter (R311). -/
def counterOwner (s : State) (i : Nat) : Nat := ownerByte s (i / 64)
/-- Owner of a watermark slot. -/
def slotOwner (s : State) (i : Nat) : Nat := ownerByte s (0x100 + i / 16)
/-- Owner of a group. -/
def groupOwner (s : State) (i : Nat) : Nat := ownerByte s (0x200 + i / 16)

/-- A record of a core's trace ring as bytes 8j to 8j + 7 (R414, R417). -/
def ringWord (c : Core) (i j : Nat) : Word :=
  match (c.ring.find? fun r => r.1 == i).map Prod.snd with
  | none => 0
  | some r => if j = 0 then r.d0 else if j = 1 then r.d1 else if j = 2 then r.d2 else r.d3

/-- Is it a VF performance counter that caches, walkers and memory drive (R362)? -/
def isCounter (pa : Nat) : Bool := decide (0x40000100000 ≤ pa) && decide (pa < 0x40000500000) && decide (pa % 0x10000 < 64)

/-- What a read of a register returns (R378): a performance counter stands at what the module has counted and a free number of
events more (R362; log entry 14); none where the map assigns nothing. -/
def devRead (s : State) (pa : Nat) : Option Word :=
  match devReg pa with
  | none => none
  | some _ =>
    let o := pa - 0x40000000000
    if o = 0x20 ∨ (0x500000 ≤ o ∧ o < 0x540000 ∧ o % 0x1000 = 0x20) then
      some (if s.cur < 320 then 0 else wd ((devGet s pa).toNat / 2 ^ (s.cur - 320) % 2))
    else if 0x500000 ≤ o ∧ o < 0x540000 ∧ o % 0x1000 = 8 then some 0
    else if isCounter pa then some (devGet s pa + Config.counterRead s.free)
    else if 0x600000 ≤ o ∧ o < 0x615000 ∧ o % 0x100 = 0x50 then
      let c := coreAt s (coreOf ((o - 0x600000) / 0x100))
      some (wd (c.ringLaps.toNat * 4294967296 + c.ringNext))
    else if 0x700000 ≤ o ∧ o < 0x9C0000 then
      some (ringWord (coreAt s ((o - 0x700000) / 0x4000)) ((o - 0x700000) % 0x4000 / 32) (o % 32 / 8))
    else if o = 0xA00018 then some (wd s.replayPos)
    else if 0xB00000 ≤ o ∧ o < 0xB00580 then
      let c := coreAt s ((o - 0xB00000) / 8)
      some (wd (c.degr * 1099511627776 + c.limit * 4294967296 + c.steps * 65536 + c.temp))
    else if 0xC00000 ≤ o ∧ o < 0xC10000 ∧ o % 64 = 16 then some (wd (qHeld s ((o - 0xC00000) / 64)))
    else if 0xC10000 ≤ o ∧ o < 0xC20000 ∧ o % 16 = 8 then some (wd (inUse s ((o - 0xC10000) / 16)))
    else some (devGet s pa)

/-- A register of a VF page that S may not write (R380). -/
def hOnly (pa : Nat) : Bool :=
  decide (0x40000500000 ≤ pa) && decide (pa < 0x40000540000) && decide (0x28 ≤ pa % 0x1000) && decide (pa % 0x1000 ≤ 0x40)

/-- The event by which a committed register write acts (R378 to R381). -/
def devEvent (cur pa : Nat) (v : Word) : Instr :=
  let o := pa - 0x40000000000
  if o = 0x20 then .preempt cur v
  else if o = 0x28 then .vfreset v
  else if 0x38 ≤ o ∧ o < 0x58 then .sramsize ((o - 0x38) / 8) v
  else if 0x1200 ≤ o ∧ o < 0x1700 then .flim ((o - 0x1200) / 8) v
  else if 0x500000 ≤ o ∧ o < 0x540000 ∧ o % 0x1000 = 8 then .dbhi ((o - 0x500000) / 0x1000) v
  else if 0x500000 ≤ o ∧ o < 0x540000 ∧ o % 0x1000 = 0x20 then .vfPreempt ((o - 0x500000) / 0x1000) v
  else if 0xC20000 ≤ o ∧ o < 0xC20300 then .ownerTableWrite (o - 0xC20000) (v.setWidth 8)
  else .registerWrite pa v

end Sys2Proof.Machine
end

