-- ==== Sys2Proof/Machine/Units.lean ====
section
/-! DEFINITION. Machine/Units.lean: the task unit and the barrier unit on IOD (R311 to R342): error records, counters,
panels, items, watermark slots and group records. -/

namespace Sys2Proof.Machine

open Sys2Proof

/-- Append an item to a queue. -/
def pushItem (s : State) (q : Nat) (it : Item) : State :=
  { s with items := spPut s.items q (qItems s q ++ [it]) }

/-- Send a record to the error queue that a register names, if it is valid; a record bypasses CAP and a dropped one is
counted in ERRDROP (R332). -/
def sendRecord (s : State) (errq : Word) (lo hi : Word) : State :=
  let q := fld errq 0 10
  if fld errq 63 1 = 1 ∧ qKind s q = 1 ∧ qOwner s q < 64 ∧ poolUsed s < 65536 then
    pushItem s q { lo := lo, hi := hi, place := none }
  else devBump s (paModule 0x10)

/-- A record for a queue's ERRQ (R332, R381). -/
def queueRecord (s : State) (q : Nat) (lo hi : Word) : State := sendRecord s (devGet s (paQueue q 1)) lo hi

/-- A record for a VF's error queue (R380). -/
def vfRecord (s : State) (vf : Nat) (lo hi : Word) : State := sendRecord s (devGet s (paVf vf 0x28)) lo hi

/-- A record for the hypervisor's error queue (R379). -/
def hRecord (s : State) (lo hi : Word) : State := sendRecord s (devGet s (paModule 0x30)) lo hi

/-- The designator of a local queue. -/
def designator (q : Nat) : Nat := moduleNo * 1024 + q

/-- A little-endian field of a descriptor (R313). -/
def dfld (d : List Byte) (off n : Nat) : Nat := leNat (fun i => d.getD i 0) off n

/-- TID of a panel: entry in [15:0], sequence in [31:16] (R316). -/
def Panel.tid (p : Panel) : Nat := p.entry % 65536 + p.seq % 65536 * 65536

/-- Have all rows of all bands been granted (R319, R322)? -/
def Panel.exhausted (p : Panel) : Bool :=
  let rows := dfld p.desc 8 4
  let cols := dfld p.desc 12 4
  rows == 0 || decide (cols ≤ p.band * dfld p.desc 66 2)

/-- Change the panels with a TID. -/
def modPanel (s : State) (tid : Nat) (f : Panel → Panel) : State :=
  { s with panels := s.panels.map fun p => if p.tid = tid then f p else p }

/-- A counter's state. -/
def counterAt (s : State) (i : Nat) : Counter := spGet { val := 0, poison := false, bad := false } s.counters i

/-- Set a counter. -/
def putCounter (s : State) (i : Nat) (c : Counter) : State :=
  { s with counters := spSet { val := 0, poison := false, bad := false } s.counters i c }

/-- A watermark slot's state. -/
def slotAt (s : State) (i : Nat) : WmSlot := spGet { val := 0, poison := false } s.slots i

/-- Set a watermark slot (R329): poison is cleared (R331). -/
def wmSet (s : State) (i : Nat) (v : Word) : State :=
  { s with slots := spSet { val := 0, poison := false } s.slots i { val := v, poison := false } }

/-- Lower a counter by one, without releasing (R324): a zero or poisoned one is left. -/
def lowerCounter (s : State) (i : Nat) : State :=
  let c := counterAt s i
  if c.poison || c.val == 0 then s else putCounter s i { c with val := c.val - 1 }

/-- Does a counter hold its panels back (R317)? -/
def counterHolds (s : State) (i : Nat) : Bool :=
  if i = 0xFFFF then false else let c := counterAt s i; c.poison || c.val != 0

/-- The completion of a panel, as one action (R322): its counters, its slot, its entry. DESIGN CHOICE (log entry 110): its write of a
poisoned slot clears the poison, as a WMPUB does. -/
def finishPanel (s : State) (p : Panel) : State :=
  let dec (s : State) (i : Nat) : State := if i = 0xFFFF then s else lowerCounter s i
  let s1 := dec (dec s (dfld p.desc 74 2)) (dfld p.desc 76 2)
  let w := dfld p.desc 78 2
  let s2 := if w = 0xFFFF then s1 else wmSet s1 w 0xFFFFFFFFFFFFFFFF
  { s2 with panels := s2.panels.filter fun q => q.tid != p.tid }

/-- The panel that was posted first (R317). -/
def firstPosted : List Panel → Option Panel
  | [] => none
  | p :: t => match firstPosted t with
    | none => some p
    | some q => if q.order < p.order then some q else some p

/-- One round of the task unit: the oldest posted panel whose counter lets go becomes ready (R317), or else the first
ready panel with every row granted and every grant retired completes (R322). -/
def settleOnce (s : State) : State :=
  match firstPosted (s.panels.filter fun p => p.posted && !p.ready && !p.dead && !counterHolds s (dfld p.desc 72 2)) with
  | some p =>
    { modPanel s p.tid (fun p => { p with ready := true, order := s.nextOrder }) with nextOrder := s.nextOrder + 1 }
  | none =>
    match s.panels.filter fun p => p.ready && !p.dead && p.exhausted && p.live == 0 with
    | p :: _ => finishPanel s p
    | [] => s

/-- Rounds until nothing moves; each panel moves at most twice. -/
def settleFuel : Nat → State → State
  | 0, s => s
  | n + 1, s => settleFuel n (settleOnce s)

/-- Let the task unit act on released and completed panels (R317, R322). -/
def settle (s : State) : State := settleFuel (2 * s.panels.length) s

/-- DEPSET at its commit point (R324). -/
def depset (s : State) (i : Nat) (v : BitVec 32) : State := settle (putCounter s i { val := v, poison := false, bad := false })

/-- DEPDEC at its commit point (R324). -/
def depdec (s : State) (i : Nat) : State := settle (lowerCounter s i)

/-- Poison a counter for a lost grant (R323, R331): the panels held on it stay held, until DEPSET clears it (R317, R324). -/
def poisonCounter (s : State) (i : Nat) : State :=
  if i = 0xFFFF then s else putCounter s i { counterAt s i with poison := true }

/-- An error in a counter itself (R331): it is poisoned, and every panel held on it is lost. -/
def breakCounter (s : State) (i : Nat) : State :=
  if i = 0xFFFF then s else
    let s1 := putCounter s i { counterAt s i with poison := true, bad := true }
    let lost := s1.panels.filter fun p => p.posted && !p.ready && !p.dead && dfld p.desc 72 2 == i
    lost.foldl (fun s p => queueRecord (modPanel s p.tid fun p => { p with dead := true }) p.queue
      (wd (1 * 2 ^ 56 + p.tid)) (wd (designator p.queue + i * 2 ^ 32))) s1

/-- Queues that hold a panel naming a counter (R332): a panel is in its queue from its commit point on (R316). -/
def namingQueues (s : State) (i : Nat) : List Nat :=
  ((s.panels.filter fun p => p.posted && (dfld p.desc 72 2 == i || dfld p.desc 74 2 == i || dfld p.desc 76 2 == i)).map Panel.queue).eraseDups

/-- A live counter holds an uncorrectable error (R331): its kind 2 records, then it is poisoned and its tasks are lost. -/
def upsetCounter (s : State) (i : Nat) : State :=
  let lo := wd (2 * 2 ^ 56)
  breakCounter (match namingQueues s i with
    | [] => vfRecord s (counterOwner s i) lo (wd (i * 2 ^ 32))
    | l => l.foldl (fun s q => queueRecord s q lo (wd (designator q + i * 2 ^ 32))) s) i

/-- An entry holds an uncorrectable error (R331): its task is lost, posted already or not; where it has granted, its SIGC counters are
poisoned. DESIGN CHOICE (log entry 109): a lost panel keeps its entry, and counts against CAP and the pool. -/
def upsetPanel (s : State) (tid : Nat) : State :=
  match s.panels.find? fun p => p.tid == tid with
  | none => s
  | some p =>
    if p.dead then s else
      let s1 := modPanel s tid fun p => { p with dead := true }
      let s2 := if p.row = 0 ∧ p.band = 0 then s1
        else poisonCounter (poisonCounter s1 (dfld p.desc 74 2)) (dfld p.desc 76 2)
      queueRecord s2 p.queue (wd (2 ^ 56 + tid)) (wd (designator p.queue + 0xFFFF * 2 ^ 32))

/-- A watermark slot holds an uncorrectable error (R331). -/
def upsetSlot (s : State) (i : Nat) : State :=
  vfRecord { s with slots := spPut s.slots i { val := (slotAt s i).val, poison := true } } (slotOwner s i) (wd (5 * 2 ^ 56))
    (wd (i * 2 ^ 32))

/-- An item of a queue holds an uncorrectable error and is discarded (R331); a reserved place returns to its sender, as when the
item is taken. -/
def upsetItem (s : State) (q place : Nat) : State :=
  match (qItems s q)[place]? with
  | none => s
  | some it =>
    let l := (qItems s q).eraseIdx place
    queueRecord { s with
      items := if l.isEmpty then spDel s.items q else spPut s.items q l,
      outbound := match it.place with
        | none => s.outbound
        | some i => s.outbound ++ [.placeBack i false] } q (wd (6 * 2 ^ 56)) (wd (designator q))

/-- A group record holds an uncorrectable error (R342): it is poisoned and reported to the owner's error queue and to HERRQ. The
layout of that report is not given: log entry 84. -/
def upsetGroup (s : State) (g : Nat) : State :=
  match (s.groups.find? fun e => e.1 == g).map Prod.snd with
  | none => s
  | some r =>
    let s1 := { s with groups := spPut s.groups g { r with poison := true }, free := s.free + 2 }
    let lo := Config.groupReport s.free
    let hi := Config.groupReport (s.free + 1)
    hRecord (vfRecord s1 r.owner lo hi) lo hi

/-- A posted panel enters its queue at the commit point (R316, R317); one that waits on a counter with an error of its own is lost, and one that is
lost already never launches (R331). -/
def postPanel (s : State) (tid : Nat) : State :=
  let s1 := { modPanel s tid (fun p => { p with posted := true, order := s.nextOrder }) with nextOrder := s.nextOrder + 1 }
  match s1.panels.find? fun p => p.tid == tid with
  | none => s1
  | some p =>
    let i := dfld p.desc 72 2
    if p.dead then s1
    else if i ≠ 0xFFFF ∧ (counterAt s1 i).bad = true then
      queueRecord (modPanel s1 tid fun p => { p with dead := true }) p.queue (wd (1 * 2 ^ 56 + tid))
        (wd (designator p.queue + i * 2 ^ 32))
    else settle s1

/-- Is a thread a member of a group? -/
def isMember (s : State) (g tid : Nat) : Bool :=
  match (s.groups.find? fun e => e.1 == g).map Prod.snd with
  | none => false
  | some r => r.members.any fun m => m.tid == tid && m.away.isNone

/-- May a panel serve a requester (R318)? -/
def serves (s : State) (tid : Nat) (p : Panel) : Bool :=
  let g := dfld p.desc 80 2
  p.posted && p.ready && !p.dead && !p.exhausted && (g == 0xFFFF || isMember s g tid)

/-- The first panel of a list under R318: priority, then order of readiness. -/
def firstPanel : List Panel → Option Panel
  | [] => none
  | p :: t =>
    match firstPanel t with
    | none => some p
    | some r => if r.prio > p.prio ∨ (r.prio = p.prio ∧ r.order < p.order) then some r else some p

/-- The panel that a queue serves a requester from: own die's first, then any (R318, R321); the flag says own. -/
def pickPanel (s : State) (q tid die : Nat) : Option (Panel × Bool) :=
  let c := s.panels.filter fun p => p.queue == q && serves s tid p
  match firstPanel (c.filter fun p => p.home == die) with
  | some p => some (p, true)
  | none => (firstPanel c).map fun p => (p, false)

/-- The rows of a grant before the tile bound and after it (R319). -/
def grantRows (p : Panel) (fcur tr : Nat) : Nat :=
  let rq := dfld p.desc 64 2
  let n := rq * Nat.max 1 (dfld p.desc 68 2 * fcur / (307200 * rq))
  let rows := Nat.min n (dfld p.desc 8 4 - p.row)
  if dfld p.desc 71 1 % 2 = 1 then Nat.min rows (rq * (tr / rq)) else rows

/-- Take a grant from a panel (R318, R319). -/
def takeGrant (s : State) (p : Panel) (rows : Nat) : State × Grant :=
  let cq := dfld p.desc 66 2
  let cols := Nat.min cq (dfld p.desc 12 4 - p.band * cq)
  let g : Grant := { row0 := p.row, col0 := p.band * cq, rows := rows, cols := cols, tid := p.tid }
  let r := p.row + rows
  let age (o : Panel) : Panel :=
    if o.queue == p.queue && o.ready && decide (o.prio < p.prio) && o.tid != p.tid then
      (if o.aged + 1 = 1048576 then { o with aged := 0, prio := Nat.min 3 (o.prio + 1) } else { o with aged := o.aged + 1 })
    else o
  let s1 := { s with panels := s.panels.map age }
  (modPanel s1 p.tid fun p =>
    if r < dfld p.desc 8 4 then { p with row := r, live := p.live + 1 }
    else { p with row := 0, band := p.band + 1, live := p.live + 1 }, g)

/-- Retire a grant (R322): a dead panel's grants retire without effect (R331). -/
def retireGrant (s : State) (tid : Nat) : State := settle (modPanel s tid fun p => { p with live := p.live - 1 })

/-- Abandon a grant of a thread (R323). -/
def abandonGrant (s : State) (thread : Nat) (g : Grant) : State :=
  match s.panels.find? fun p => p.tid == g.tid with
  | none => s
  | some p =>
    let s1 := modPanel s p.tid fun p => { p with dead := true }
    let c0 := dfld p.desc 74 2
    let c1 := dfld p.desc 76 2
    queueRecord (poisonCounter (poisonCounter s1 c0) c1) p.queue (wd (4 * 2 ^ 56 + thread * 2 ^ 32 + p.tid))
      (wd (designator p.queue + c0 * 2 ^ 32 + c1 * 2 ^ 48))

/-- A group record. -/
def groupAt (s : State) (g : Nat) : Option Group := (s.groups.find? fun e => e.1 == g).map Prod.snd

/-- The arrived phase of a member. -/
def memberAp (r : Group) (tid : Nat) : Option Int := (r.members.find? fun m => m.tid == tid && m.away.isNone).map Member.ap

/-- The least arrived phase of a list of members. -/
def minAp : List Member → Option Int
  | [] => none
  | m :: t => match minAp t with
    | none => some m.ap
    | some a => some (if m.ap < a then m.ap else a)

/-- Put a straggler entry in its place: latest first, the higher THREADID first among equal ticks (R340). -/
def insertLate (a : Arrival) : List Arrival → List Arrival
  | [] => [a]
  | b :: t => if b.tick < a.tick ∨ (b.tick = a.tick ∧ b.tid < a.tid) then a :: b :: t else b :: insertLate a t

/-- The straggler record of a phase (R339, R340). -/
def stragglers (log : List Arrival) (p : Int) : List (Nat × Nat × Nat × Word) :=
  let l := (log.filter fun a => decide (a.lo ≤ p) && decide (p ≤ a.hi)).foldl (fun r a => insertLate a r) []
  let first := (l.getLast?.map Arrival.tick).getD 0
  (l.take 4).map fun a => (a.tid, a.core, a.fcur, a.tick - first)

/-- Recompute CP after a change of membership or arrival (R334), replacing the straggler record at a completion. -/
def recompute (r : Group) : Group :=
  match minAp r.members with
  | none => r
  | some a =>
    if a ≤ r.cp then r else
      { r with cp := a, record := some (a, stragglers r.log a), log := r.log.filter fun l => decide (a < l.hi) }

/-- The IOD timer when what a thread sends now reaches IOD (R340): 20 of its ticks after it has left a compute die. -/
def reachesIod (s : State) (tid : Nat) : Nat :=
  let d := dieOf (coreOf tid)
  toIod d (coreAt s (coreOf tid)).clock + (if d = 4 then 0 else 20 * 42949672960)

/-- The record that a first GJOIN creates (R336). -/
def Group.fresh (owner : Nat) (m : Member) : Group :=
  { owner := owner, members := [m], cp := m.ap, log := [], record := none, poison := false, rose := 0 }

/-- A record whose CP has risen above what it was keeps the time of that (R338). -/
def risen (now : Nat) (cp : Int) (r : Group) : Group := if cp < r.cp then { r with rose := now } else r

/-- Put a group record. -/
def putGroup (s : State) (g : Nat) (r : Group) : State := { s with groups := spPut s.groups g r }

/-- The barrier unit accepts an arrival at phase p (R337): stamps it with the tick of the IOD timer at which it comes, or, where its phase was not
open then, at which CP has opened it, and recomputes CP. -/
def acceptArrival (s : State) (g tid fcur : Nat) (p : Int) : State :=
  match groupAt s g with
  | none => s
  | some r =>
    match memberAp r tid with
    | none => s
    | some ap =>
      let now := Nat.max (reachesIod s tid) r.rose
      let a : Arrival :=
        { tid := tid, core := coreOf tid, fcur := fcur, tick := ticksOf now, lo := ap + 1, hi := p, away := none }
      putGroup s g (risen now r.cp <| recompute { r with
        members := r.members.map fun m => if m.tid = tid ∧ m.away.isNone = true then { m with ap := p } else m,
        log := r.log ++ [a] })

/-- A member leaves (R336); the flag says that the group is dissolved. -/
def leaveGroup (s : State) (g tid : Nat) : State × Bool :=
  match groupAt s g with
  | none => (s, false)
  | some r =>
    let ms := r.members.filter fun m => !(m.tid == tid && m.away.isNone)
    if ms.isEmpty then ({ s with groups := spDel s.groups g }, true)
    else (putGroup s g (risen (reachesIod s tid) r.cp (recompute { r with members := ms, log := r.log.filter fun a => !(a.tid == tid && a.away.isNone) })), false)

/-- The reservation entry that registers a sender with a queue (R381). -/
def senderEntry (s : State) (q smod svf : Nat) (host : Bool) : Option Nat :=
  (s.dev.filterMap fun e =>
    let o := e.1 - 0x40000C10000
    if 0x40000C10000 ≤ e.1 ∧ e.1 < 0x40000C20000 ∧ o % 16 = 0 ∧ fld e.2 63 1 = 1 ∧ fld e.2 62 1 = b2n host
        ∧ fld e.2 32 6 = svf ∧ fld e.2 16 11 = smod ∧ fld e.2 0 10 = q then some (o / 16) else none).head?

/-- Places of a reservation entry. -/
def senderPlaces (s : State) (i : Nat) : Nat := fld (devGet s (paSender i 0)) 48 8

/-- Does a local item queue have a free place under CAP (R312, R325)? -/
def hasRoom (s : State) (q : Nat) : Bool := decide ((qItems s q).length < 8 * qCap s q)

/-- Remove the oldest item of a queue (R326); a reserved place returns to its sender (R325). -/
def popItem (s : State) (q : Nat) : Option (Item × State) :=
  match qItems s q with
  | [] => none
  | it :: t => some (it, { s with
      items := if t.isEmpty then spDel s.items q else spPut s.items q t,
      outbound := match it.place with
        | none => s.outbound
        | some i => s.outbound ++ [.placeBack i false] })

end Sys2Proof.Machine
end

