-- ==== Sys2Proof/Machine/Translate.lean ====
section
/-! DEFINITION. Machine/Translate.lean: from a virtual address to a place in the module (R245 to R247, R343 to R353,
R377): the walk, the TLBs, permissions and frame ownership. -/

namespace Sys2Proof.Machine

open Sys2Proof

/-- The kinds of access (R346). -/
inductive Kind where
  /-- A load or leaf read. -/
  | read
  /-- A store or sink. -/
  | write
  /-- An atomic: both. -/
  | amo
  /-- Instruction or weave-block fetch. -/
  | fetch
  deriving DecidableEq, Repr

/-- A fault of an access: cause code, virtual address, and whether it goes to H although S would take it (R348). -/
structure Flt where
  /-- Cause code of R384. -/
  cause : Nat
  /-- Address. -/
  addr : Word
  /-- Delivered to H. -/
  toH : Bool
  deriving DecidableEq, Repr

/-- Under whom an access is translated. -/
structure Who where
  /-- Root of the walk. -/
  root : Nat
  /-- Level. -/
  lvl : Level
  /-- VFID. -/
  vf : Nat
  /-- ASID. -/
  asid : BitVec 16
  /-- Base of the FOT. -/
  fot : Nat
  /-- Shadow tables in force (R348). -/
  shadow : Bool
  /-- The core whose local windows are named. -/
  core : Nat
  deriving DecidableEq, Repr

/-- The thread that moves, at a level (R345, R347, R355). -/
def whoAt (s : State) (lvl : Level) : Who :=
  let sh := decide (fld s.t.hptbase 63 1 = 1) && lvl != .h
  { root := (if sh then fld s.t.hptbase 12 38 else fld s.t.ptbase 12 38) * 4096, lvl := lvl, vf := s.t.vfid,
    asid := s.t.asid, fot := fld s.t.fotbase 16 34 * 65536, shadow := sh, core := coreOf s.cur }

/-- The thread that moves, at its own level. -/
def who (s : State) : Who := whoAt s s.t.lvl

/-- The checks that an FOT entry makes (R353): 4 permission, 5 frame in transit. -/
def entryCheck (w : Who) (e : Nat) : Option Nat :=
  let owner := e / 65536 % 128
  if !(if w.lvl = .h then decide (owner ≤ 64) else owner == w.vf) then some 4
  else if bitAt e 31 then some 5 else none

/-- The FOT entry of a place as memory holds it; 0 where it has none. -/
def fotOf (s : State) (w : Who) (k : Nat) : Nat := ((fotIndex k).map (fotEntry s w.fot)).getD 0

/-- The FOT check of a place (R353). -/
def frameCheck (s : State) (w : Who) (k : Nat) : Option Nat := if (fotIndex k).isNone then none else entryCheck w (fotOf s w k)

/-- Is it in the journal registers, which H alone reaches (R419)? -/
def isJournal (pa : Nat) : Bool := decide (0x40000A00000 ≤ pa) && decide (pa < 0x40000A01000)

/-- Is a physical place assigned, and may it be reached (R245, R353, R377, R419), under an FOT entry? The cause code where not: permission for
a journal register below H (DESIGN CHOICE, log entry 121). -/
def placeUnder (s : State) (w : Who) (kind : Kind) (pa e : Nat) : Option Nat :=
  if isDram pa then entryCheck w e
  else if isDevice pa then (if kind = .amo ∨ (isJournal pa = true ∧ w.lvl ≠ .h) then some 4 else none)
  else if isHostMem pa then
    let page := pa / 4096
    let perm := devGet s (paVf w.vf 0x40)
    if kind = .amo ∨ page < fld (devGet s (paVf w.vf 0x30)) 12 38 ∨ fld (devGet s (paVf w.vf 0x38)) 12 38 < page
        ∨ fld perm (if kind = .write then 1 else 0) 1 = 0 then some 4 else none
  else some 3

/-- The same under the entry that memory holds. -/
def placeCheck (s : State) (w : Who) (kind : Kind) (pa : Nat) : Option Nat := placeUnder s w kind pa (fotOf s w pa)

/-- Is the line of a place poisoned (R119)? -/
def isPoisoned (s : State) (k : Nat) : Bool := s.poison.contains (k / 64)

/-- A leaf that translates an address: where a walk found its entry, the entry, the page size as a power of two, and the FOT
fields where a TLB supplied both. -/
structure Leaf3 where
  /-- Physical address of the entry; none for one that a TLB supplied. -/
  pos : Option Nat
  /-- The entry. -/
  entry : Nat
  /-- Base-2 logarithm of the page size. -/
  bits : Nat
  /-- The cached FOT entry. -/
  fot : Option Nat
  deriving DecidableEq, Repr

/-- The walk of R345 over the levels still to go, from a table. -/
def walkFrom (s : State) (w : Who) (va : Nat) : Nat → List Nat → Except Nat Leaf3
  | _, [] => .error 3
  | t, lvl :: rest =>
    let shift := 43 - 9 * lvl
    let ea := t + 8 * (va / 2 ^ shift % 512)
    match placeCheck s w .read ea with
    | some c => .error c
    | none =>
      if isDevice ea then .error 3
      else if isPoisoned s ea then .error 8
      else
        let e := leNat (memByte s) ea 8
        let pa := e / 4096 % 274877906944 * 4096
        if !bitAt e 0 || decide (e / 1125899906842624 ≠ 0) || decide (e / 256 % 16 ≠ 0) then .error 3
        else if !bitAt e 1 then
          (if decide (e / 4 % 64 ≠ 0) then .error 3 else walkFrom s w va pa rest)
        else if lvl = 0 ∨ pa % 2 ^ shift ≠ 0 ∨ (bitAt e 3 && !bitAt e 2) = true then .error 3
        else .ok { pos := some ea, entry := e, bits := shift, fot := none }

/-- The whole walk (R345). -/
def walk (s : State) (w : Who) (va : Nat) : Except Nat Leaf3 := walkFrom s w va w.root [0, 1, 2, 3]

/-- The permission check of a leaf (R346). -/
def leafCheck (w : Who) (kind : Kind) (e : Nat) : Bool :=
  (match kind with
   | .read => bitAt e 2
   | .write => bitAt e 3
   | .amo => bitAt e 2 && bitAt e 3
   | .fetch => bitAt e 4) &&
  (if w.lvl = .u then bitAt e 5 else !(kind == .fetch && bitAt e 5))

/-- The byte of on-chip memory that an address of the local window names to a core (R245 to R249), given the MiB of each die's SRAM. -/
def localKey (mib : Nat → Nat) (core va : Nat) : Option Nat :=
  let o := va % 4294967296
  if o < 262144 ∧ core < 160 then some (tcmKey core o)
  else if 16777216 ≤ o ∧ o < 20971520 ∧ core < 160 then some (loomKey (loomOf core) (o - 16777216))
  else if 268435456 ≤ o ∧ o < 335544320 then
    let p := o - 268435456
    if p % 16777216 < 1048576 * mib (p / 16777216) then some (sramKey (p / 16777216) (p % 16777216)) else none
  else none

/-- The configured size of a die's SRAM in MiB (R249). -/
def sramMib (s : State) (die : Nat) : Nat := fld (devGet s (paModule (0x38 + 8 * die))) 0 5

/-- A place in a local window (R246 to R249); the fetch of R247 is refused by the caller. -/
def localPlace (s : State) (w : Who) (va : Nat) : Except Nat Nat :=
  match localKey (sramMib s) w.core va with
  | none => .error 3
  | some k => match frameCheck s w k with
    | some c => .error c
    | none => .ok k

/-- The L2 TLB of a core's loom (R351); a steward's core, and a port, has none. -/
def loomTlb (core : Nat) : Nat := if core < 160 then 256 + loomOf core else core

/-- The entry of a page in one TLB (R351). -/
def tlbIn (s : State) (holder : Nat) (w : Who) (va : Nat) : Option TlbEntry :=
  s.tlb.find? fun e => e.holder == holder && e.vf == w.vf && e.asid == w.asid && e.root == w.root && e.page == va / 65536

/-- The TLB entry of a page (R351): the L1 of the core that asks, else the L2 of its loom. -/
def tlbFind (s : State) (w : Who) (va : Nat) : Option TlbEntry := (tlbIn s w.core w va).or (tlbIn s (loomTlb w.core) w va)

/-- A TLB takes an entry in place of what it holds of its page (R351). -/
def tlbPut (s : State) (w : Who) (va : Nat) (e : TlbEntry) : State :=
  match tlbIn s e.holder w va with
  | none => { s with tlb := e :: s.tlb }
  | some o => if o = e then s else { s with tlb := e :: s.tlb.filter (fun x => x != o), free := s.free + 1 }

/-- The physical address that a leaf gives. -/
def Leaf3.place (l : Leaf3) (va : Nat) : Nat := l.entry / 4096 % 274877906944 * 4096 + va % 2 ^ l.bits

/-- The leaf that translates an address (R345, R351, R352): where a cached entry or its FOT fields differ from what memory holds now, the access may
use either, and a free value says which; a write through an entry whose D is 0 walks again. Bits A and D are not compared: an access after software
has cleared them alone uses the entry that memory holds now (DESIGN CHOICE, log entry 115). Accesses between two uses of free values choose alike, and
a 64 KiB part of a larger page that was not itself used walks anew (DESIGN CHOICE, log entry 144). -/
def leafFor (s : State) (w : Who) (kind : Kind) (va : Nat) : Except Nat Leaf3 :=
  let now := walk s w va
  match tlbFind s w va with
  | none => now
  | some e =>
    let old : Leaf3 := { pos := none, entry := e.leaf.toNat, bits := Nat.log2 e.size, fot := some e.fot }
    let same : Bool := match now with
      | .ok l => l.entry / 256 * 64 + l.entry % 64 == old.entry / 256 * 64 + old.entry % 64 &&
          fotOf s w (l.place va) == e.fot
      | .error _ => false
    if same || ((kind == .write || kind == .amo) && !bitAt old.entry 7) then now
    else if Config.oldTranslation s.free then .ok old else now

/-- The place that a leaf gives an access, or its fault (R345, R346, R353). -/
def underLeaf (s : State) (w : Who) (kind : Kind) (va : Nat) (l : Leaf3) : Except Nat Nat :=
  let pa := l.place va
  if !isDram pa && !isDevice pa && !isHostMem pa then .error 3
  else if !leafCheck w kind l.entry then .error 4
  else match placeUnder s w kind pa (l.fot.getD (fotOf s w pa)) with
    | some c => .error c
    | none => .ok pa

/-- Where an access goes, or its fault, with no effect on the module (R343 to R353). -/
def lookup (s : State) (w : Who) (kind : Kind) (a : Word) : Except Nat (Nat × Option Leaf3) :=
  let va := a.toNat
  if 4503599627370496 ≤ va then .error 3
  else if 4503595332403200 ≤ va then
    (if kind = .fetch then .error 4 else
      match localPlace s w va with
      | .error c => .error c
      | .ok k => .ok (k, none))
  else
    match leafFor s w kind va with
    | .error c => .error c
    | .ok l => (underLeaf s w kind va l).map fun pa => (pa, some l)

/-- Is the fault one that a guest's store to a shadowed table frame takes to H (R348)? -/
def tblStore (s : State) (w : Who) (kind : Kind) (k : Nat) : Bool :=
  w.shadow && (kind == .write || kind == .amo) &&
  (match fotIndex k with
   | none => false
   | some i => bitAt (fotEntry s w.fot i) 30)

/-- A demand access uses a leaf: A and D are set (R349), the core's L1 TLB keeps it, and what a walk has found the L2 of its loom too
(R351). -/
def useLeaf (s : State) (w : Who) (kind : Kind) (va : Nat) (l : Leaf3) : State :=
  let d := kind = .write ∨ kind = .amo
  let b := l.entry % 256
  let b' := b % 64 + 64 + (if d then 128 else b / 128 * 128)
  let s1 := if b' = b then s else
    (l.pos.map fun p => { pokeByte s p (BitVec.ofNat 8 b') with marked := (p, BitVec.ofNat 8 b') :: s.marked }).getD s
  let e : TlbEntry := { holder := w.core, vf := w.vf, asid := w.asid, root := w.root, page := va / 65536,
                        leaf := wd (l.entry - b + b'), size := 2 ^ l.bits,
                        fot := l.fot.getD (fotOf s w (l.place va)) }
  let s2 := tlbPut s1 w va e
  if l.pos.isSome && loomTlb w.core != w.core then tlbPut s2 w va { e with holder := loomTlb w.core } else s2

/-- A demand translation by any agent: the place, with A and D set and the TLB filled, or the fault (R343 to R353).
A frame in transit comes before the fault of a store that the hypervisor watches (R348; DESIGN CHOICE, log entry 135). -/
def demand (s : State) (w : Who) (kind : Kind) (a : Word) : State × Except Flt Nat :=
  match lookup s w kind a with
  | .error c => (s, .error { cause := c, addr := a, toH := false })
  | .ok (k, l) =>
    if tblStore s w kind k then (s, .error { cause := 4, addr := a, toH := true })
    else ((l.map (useLeaf s w kind a.toNat)).getD s, .ok k)

/-- A chunk has used a leaf for an address (R159, R360). -/
def Chunk.useOf (c : Chunk) (w : Who) (va k size fot : Nat) (leaf : Word) : Chunk :=
  let u : PageUse := { vf := w.vf, asid := w.asid, page := va / 65536, size := size, place := k / 65536, leaf := leaf, fot := fot }
  if c.used.contains u then c else { c with used := u :: c.used }

/-- A chunk has used the translation of an address to a place (R159, R360); a local window has none. -/
def Chunk.use (s : State) (c : Chunk) (w : Who) (va k : Nat) : Chunk :=
  if 4503595332403200 ≤ va then c
  else match tlbFind s w va with
    | some e => c.useOf w va k e.size e.fot e.leaf
    | none => c.useOf w va k 65536 0 0

/-- A place by a translation that a chunk has kept (R159): with the checks of an access (R346, R348, R353). A write through an entry whose D is 0 walks
again (R349, R352): none. -/
def keptPlace (s : State) (w : Who) (kind : Kind) (va : Nat) (u : PageUse) : Option (Except Flt Nat) :=
  let l : Leaf3 := { pos := none, entry := u.leaf.toNat, bits := Nat.log2 u.size, fot := some u.fot }
  if !bitAt l.entry 0 || ((kind == .write || kind == .amo) && !bitAt l.entry 7) then none
  else some (match underLeaf s w kind va l with
    | .error c => .error { cause := c, addr := wd va, toH := false }
    | .ok k => if tblStore s w kind k then .error { cause := 4, addr := wd va, toH := true } else .ok k)

/-- A demand translation by the thread that moves, in its open chunk. -/
def translate (s : State) (w : Who) (kind : Kind) (a : Word) : State × Except Flt Nat :=
  match demand s w kind a with
  | (s1, .error f) => (s1, .error f)
  | (s1, .ok k) => (modT s1 fun t => { t with chunk := t.chunk.use s1 w a.toNat k }, .ok k)

end Sys2Proof.Machine
end

