-- ==== Sys2Proof/Machine/Chunk.lean ====
section
/-! DEFINITION. Machine/Chunk.lean: chunks (R270 to R293): what a thread sees, items and signatures, closing, commit,
broadcast and squash; the trace ring (R414 to R416) and the journal (R419 to R422), which record them. -/

namespace Sys2Proof.Machine

open Sys2Proof

/-- Write a record of execution at a level into the core's trace ring (R414 to R416): never for H; FILTER drops types 1 to 4 and 8. -/
def traceAt (lvl : Level) (s : State) (ty : Nat) (pass : Bool) (pc : Nat) (d2 d3 : Word) : State :=
  if lvl = .h then s
  else if !(bitAt (devGet s (paDebug s.cur 0x48)).toNat ty || (decide (5 ≤ ty) && decide (ty ≤ 7))) then s
  else
    let thr := if isSteward s.cur then 0 else s.cur % 2
    let d0 := wd (ty * 2 ^ 58 + thr * 2 ^ 57 + lvl.code * 2 ^ 55 + b2n pass * 2 ^ 54 + pc % 2 ^ 52)
    let n := (s.c.ringNext + 1) % 512
    { s with c := { s.c with ring := spPut s.c.ring s.c.ringNext { d0 := d0, d1 := s.c.cyc, d2 := d2, d3 := d3 },
                             ringNext := n, ringLaps := if n = 0 then s.c.ringLaps + 1 else s.c.ringLaps } }

/-- A record of what the thread that moves does at its level. -/
def traceRec (s : State) (ty : Nat) (pass : Bool) (pc : Nat) (d2 d3 : Word) : State := traceAt s.t.lvl s ty pass pc d2 d3

/-- The physical bytes of a journal record (R420). -/
def journalBytes (r : JRec) (units : Nat) : List Byte :=
  ((r.dw ++ List.replicate (4 * units - r.dw.length) 0).map fun (d : Word) => leBytes 8 d.toNat).flatten

/-- KIND of a record. -/
def JRec.kind (r : JRec) : Nat := fld (r.dw.getD 0 0) 56 8
/-- Its 32-byte units. -/
def JRec.units (r : JRec) : Nat := fld (r.dw.getD 0 0) 48 8
/-- Its slice. -/
def JRec.slice (r : JRec) : Nat := fld (r.dw.getD 0 0) 44 4
/-- Its agent. -/
def JRec.agent (r : JRec) : Nat := fld (r.dw.getD 0 0) 0 24
/-- Its chunk number. -/
def JRec.num (r : JRec) : Word := r.dw.getD 1 0

/-- STATE of JCTL (R419). -/
def jState (s : State) : Nat := fld (devGet s 0x40000A00000) 2 2

/-- Set STATE of JCTL. -/
def setJState (s : State) (st : Nat) : State :=
  devPut s 0x40000A00000 (wd (fld (devGet s 0x40000A00000) 0 2 + 4 * st))

/-- The journal in replay is running (R423). -/
def replaying (s : State) : Bool := s.jmode == 2 && jState s == 1

/-- Every agent is held at its next chunk boundary: a replay has diverged or has reached its END record (R425). -/
def replayHeld (s : State) : Bool := s.jmode == 2 && decide (2 ≤ jState s)

/-- A divergence of a replay (R425): the record, with the ring offset of the record that was being applied, and STATE 11; every agent is
then held. -/
def diverge (s : State) (reason agent num off : Nat) : State :=
  let d (i : Nat) : Nat := 0x40000A00040 + 8 * i
  setJState (devPut (devPut (devPut (devPut s (d 0) (wd reason)) (d 1) (wd agent)) (d 2) (wd num)) (d 3) (wd off)) 3

/-- Units of a record with n doublewords after the first two (R420): an ARRIVAL and a RESPONSE have two at least. -/
def recordUnits (kind n : Nat) : Nat := Nat.max (if kind = 4 ∨ kind = 7 then 2 else 1) ((n + 5) / 4)

/-- Append a record while recording (R419, R420): kind, slice, agent, chunk number, content. When it would pass SIZE an END
record with reason FULL is written and recording stops. -/
def journal (s : State) (kind slice agent num : Nat) (content : List Word) : State :=
  if !(s.jmode == 1 && jState s == 1) then s else
    let units := recordUnits kind content.length
    let r : JRec := { dw := wd (kind * 2 ^ 56 + units * 2 ^ 48 + slice * 2 ^ 44 + agent) :: wd num :: content, off := s.replayPos }
    if s.replayPos + 32 * units + 32 > s.jsize then
      let e : JRec := { dw := [wd (8 * 2 ^ 56 + 2 ^ 48), 0, 1], off := s.replayPos }
      setJState { pokeAll s (keyed (s.jbase + s.replayPos) (journalBytes e 1)) with
        journal := s.journal ++ [e], replayPos := s.replayPos + 32 } 2
    else
      { pokeAll s (keyed (s.jbase + s.replayPos) (journalBytes r units)) with
        journal := s.journal ++ [r], replayPos := s.replayPos + 32 * units }

/-- A replay has used a record (R419: JHEAD counts what is consumed). -/
def consume (s : State) (r : JRec) : State :=
  { s with journal := s.journal.erase r, replayPos := s.replayPos + 32 * r.units }

/-- The records of a kind for a chunk of an agent that a replay still has, oldest first. -/
def recordsOf (s : State) (kind agent num : Nat) : List JRec :=
  if !(replaying s) then [] else s.journal.filter fun r => r.kind == kind && r.agent == agent && r.num == wd num

/-- The record of a kind for the chunk of an agent that a replay finds next. -/
def recordFor (s : State) (kind agent num : Nat) : Option JRec := (recordsOf s kind agent num).head?

/-- How many values of a kind an attempt of a chunk has obtained (R422). -/
def Chunk.obtained (c : Chunk) (kind : Nat) : Nat := (c.recs.filter fun r => r.1 == kind).length

/-- The record of the next value of a kind that the open chunk of the thread that moves obtains (R423): an attempt that follows a squash meets
its chunk's records from the first on. -/
def recordNext (s : State) (kind : Nat) : Option JRec :=
  (recordsOf s kind s.cur s.t.chunk.num).drop (s.t.chunk.obtained kind) |>.head?

/-- No instruction has begun in the chunk: there is nothing to close. -/
def Chunk.idle (c : Chunk) : Bool :=
  c.count == 0 && c.readL.isEmpty && c.writeL.isEmpty && c.dev.isEmpty && c.out.isEmpty

/-- The chunk of a thread that an event at a boundary follows (R422): the open one, or the one before it where nothing has begun in it. -/
def Chunk.before (c : Chunk) : Nat := if c.idle then c.num + 18446744073709551615 else c.num

/-- An EVENT record of the thread that moves (R420, R422): type, data, PC at the boundary and the CRC over x1 to x31. -/
def journalEvent (s : State) (ty : Nat) (data : Word) : State :=
  journal s 5 0 s.cur s.t.chunk.before [Config.eventCode ty, data, wd s.t.a.pc,
    (Config.crc32 (s.t.a.x.toList.drop 1)).setWidth 64]

/-- The open chunk has obtained a value (R422): its record enters the journal with the commit, or is used up with it. -/
def obtain (s : State) (kind : Nat) (content : List Word) : State :=
  if s.jmode = 0 then s else modT s fun t => { t with chunk := { t.chunk with recs := t.chunk.recs ++ [(kind, content)] } }

/-- The response of an IOD unit to the thread that moves (R422, R423): recorded while recording; during replay the recorded one
is returned and the unit does nothing. -/
def answered (s : State) (live : State → List Word × State) : List Word × State :=
  match recordNext s 7 with
  | some r => (r.dw.drop 2, obtain s 7 (r.dw.drop 2))
  | none =>
    let v := live s
    (v.1, obtain v.2 7 v.1)

/-- A value that a volatile read obtains (R422, R423). -/
def volatileRead (s : State) (v : Word) : Word × State :=
  let x := ((recordNext s 6).map fun r => r.dw.getD 2 0).getD v
  (x, obtain s 6 [x])

/-- A RAND draw (R127, R422, R423): a squash does not withdraw it, and its record is made at once, in the order of the draws. -/
def drawn (s : State) (v : Word) : Word × State :=
  match recordFor s 3 s.cur s.t.chunk.num with
  | some r => (r.dw.getD 2 0, consume s r)
  | none => (v, journal s 3 0 s.cur s.t.chunk.num [v])

/-- The records of what a chunk has obtained enter the journal with its commit, or are used up with it (R422, R423). -/
def settleRecs (s : State) (agent : Nat) (c : Chunk) : State :=
  c.recs.foldl (fun s r => match recordFor s r.1 agent c.num with
    | some x => consume s x
    | none => journal s r.1 0 agent c.num r.2) s

/-- A byte as the thread that moves sees it: its own uncommitted stores, else committed memory (R123, R294). -/
def viewByte (s : State) (k : Nat) : Byte :=
  match s.t.chunk.writes.find? fun e => e.1 == k with
  | some e => e.2
  | none =>
    match s.t.closed with
    | none => memByte s k
    | some c => match c.writes.find? fun e => e.1 == k with
      | some e => e.2
      | none => memByte s k

/-- A byte that a chunk has written, where the thread's later vector reads come at its point or after it. -/
def Chunk.early (c : Chunk) (k : Nat) : Option Byte :=
  if c.fenced then (c.writes.find? fun e => e.1 == k).map Prod.snd else none

/-- A byte of the thread's own uncommitted stores that lie at or before the point of its vector reads: all of such a chunk, as far as it has come. -/
def fencedOwn (s : State) (k : Nat) : Option Byte := (s.t.chunk.early k).or (s.t.closed.bind fun c => c.early k)

/-- A byte as the vector side of the thread that moves sees it (R232, R301): of its own uncommitted stores those that a fence covers. -/
def fencedByte (s : State) (k : Nat) : Byte := (fencedOwn s k).getD (memByte s k)

/-- Does the vector side of the thread that moves meet an uncorrectable error in n bytes (R231)? DESIGN CHOICE (log entry 100) for the thread's
own bytes. -/
def fencedPoison (s : State) (k n : Nat) : Bool :=
  !s.poison.isEmpty && (List.range n).any fun i => isPoisoned s (k + i) && (fencedOwn s (k + i)).isNone

/-- FENCE.SV (R301): the chunk of the thread's last store so far, and those before it, come before its later vector reads. -/
def fenceStores (s : State) : State :=
  modT s fun t => { t with chunk := { t.chunk with fenced := t.chunk.fenced || !t.chunk.writes.isEmpty },
                           closed := t.closed.map fun c => { c with fenced := true } }

/-- An LDAQ, or an AMO.FAR (R297, R305): its chunk and those before it come before the thread's later vector reads. A steward has none. -/
def acquire (s : State) : State :=
  if isSteward s.cur then s
  else modT s fun t => { t with chunk := { t.chunk with fenced := true }, closed := t.closed.map fun c => { c with fenced := true } }

/-- The 64-byte lines of n bytes from a place (R278). -/
def linesOf (k n : Nat) : List Nat := (List.range ((k + n - 1) / 64 - k / 64 + 1)).map (k / 64 + ·)

/-- The arbiter slice of a line (R280). -/
def sliceOf (line : Nat) : Nat :=
  let k := line * 64
  if k < 4503599627370496 then Config.regionSlice (k / 16777216) % 16
  else if k < 9007199254740992 then
    let core := (k - 4503599627370496) / 262144
    4 * dieOf core + loomOf core % 5 % 4
  else if k < 18014398509481984 then
    let l := (k - 9007199254740992) / 4194304
    4 * (l / 5) + l % 5 % 4
  else 4 * ((k - 18014398509481984) / 16777216)

/-- The slices that own an item of a chunk, ascending (R281). -/
def footprint (c : Chunk) : List Nat :=
  let sl := (c.readL ++ c.writeL).map sliceOf ++ (c.readG ++ c.writeG).map fun g => sliceOf (g * 64)
  (List.range 16).filter sl.contains

/-- Do two parts share a set bit in every bank (R279)? -/
def partsMeet (a b : List Nat) : Bool :=
  !a.isEmpty && !b.isEmpty &&
  (List.range 4).all fun bank => a.any fun i => b.any fun j => Config.sigHash bank i % 512 == Config.sigHash bank j % 512

/-- Does a write signature, given by its lines and granules, intersect a signature (R279)? -/
def sigMeets (wl wg l g : List Nat) : Bool :=
  partsMeet wl l || partsMeet wg g || partsMeet wg (l.map (· / 64)) || partsMeet (wl.map (· / 64)) g

/-- The core of an agent (R420); 176 for a port, which is on none. -/
def agentCore (agent : Nat) : Nat :=
  if agent < 1048576 then coreOf agent else if agent < 2097152 then coreOf (agent - 1048576)
  else if agent < 3145728 then coreOf ((agent - 2097152) / 16)
  else if agent < 4194304 then 176 else coreOf (agent - 4194304)

/-- Can an agent of a core reach the block of a size that holds a place (R246, R247)? TCM and a loom's scratchpad are reached from
their own cores alone. -/
def seenFrom (core size i : Nat) : Bool :=
  let k := i * size
  if k < 4503599627370496 then true
  else if k < 9007199254740992 then decide ((k - 4503599627370496) / 262144 = core)
  else if k < 18014398509481984 then decide (core < 160) && decide ((k - 9007199254740992) / 4194304 = loomOf core)
  else true

/-- The items of a chunk that an agent of a core can reach (R247). -/
def Chunk.seenBy (c : Chunk) (core : Nat) : Chunk :=
  { c with readL := c.readL.filter (seenFrom core 64), readG := c.readG.filter (seenFrom core 4096),
           writeL := c.writeL.filter (seenFrom core 64), writeG := c.writeG.filter (seenFrom core 4096) }

/-- Does it intersect either signature of a chunk (R283)? -/
def sigHits (wl wg : List Nat) (c : Chunk) : Bool :=
  sigMeets wl wg c.readL c.readG || sigMeets wl wg c.writeL c.writeG

/-- The exact check (R285): do the items share bytes? -/
def trulyHits (wl wg : List Nat) (c : Chunk) : Bool :=
  let l := c.readL ++ c.writeL
  let g := c.readG ++ c.writeG
  wl.any l.contains || wg.any g.contains || wg.any (l.map (· / 64)).contains || (wl.map (· / 64)).any g.contains

/-- Bits set in a bank by items (R278). -/
def bankBits (bank : Nat) (l : List Nat) : Nat := (l.map fun i => Config.sigHash bank i % 512).eraseDups.length

/-- Does a chunk's occupancy exceed 128 (R278)? A part of at most 128 items cannot. -/
def overOccupied (c : Chunk) : Bool :=
  let full (l : List Nat) : Bool :=
    if l.length ≤ 128 then false else (List.range 4).any fun bank => decide (128 < bankBits bank l)
  full c.readL || full c.readG || full (c.readL.map (· / 64)) || full c.writeL || full c.writeG ||
  full (c.writeL.map (· / 64))

/-- Add to a CHKSTAT counter (R293). -/
def bumpStat (s : State) (i : Nat) (n : Nat) : State :=
  modT s fun t => { t with chkstat := t.chkstat.setIfInBounds i (t.chkstat.toList.getD i 0 + wd n) }

/-- A global tile row (R225): 128 F32 values; unlisted rows are zero. -/
def tileRow (c : Core) (g : Nat) : List (BitVec 32) := spGet (List.replicate 128 0) c.tiles g

/-- Set a global tile row. -/
def putTileRow (c : Core) (g : Nat) (r : List (BitVec 32)) : Core :=
  { c with tiles := spSet (List.replicate 128 0) c.tiles g r }

/-- Apply undo records, newest first (R284). -/
def undoRows (c : Core) : List (Nat × List (BitVec 32)) → Core
  | [] => c
  | (g, r) :: t => undoRows (putTileRow c g r) t

/-- Weight slot 0 or 1. -/
def slotOf (c : Core) (i : Nat) : Slot := if i = 0 then c.slot0 else c.slot1

/-- Set a weight slot. -/
def putSlot (c : Core) (i : Nat) (sl : Slot) : Core := if i = 0 then { c with slot0 := sl } else { c with slot1 := sl }

/-- Restore the weight slots that a chunk's MLDWs replaced (R226). -/
def undoSlots (c : Core) : List (Nat × Slot) → Core
  | [] => c
  | (i, sl) :: t => undoSlots (putSlot c i sl) t

/-- Tile rows with numbers from lo to hi − 1 become zero, and hold no error any more (R243). -/
def zeroRows (c : Core) (lo hi : Nat) : Core :=
  { c with tiles := c.tiles.filter fun r => !(decide (lo ≤ r.1) && decide (r.1 < hi)),
           bad := c.bad.filter fun g => !(decide (lo ≤ g) && decide (g < hi)) }

/-- Tile rows held by thread 0 or 1 of a core (R100). -/
def Core.rows (c : Core) (ct : Nat) : Nat := if ct = 0 then c.tr0 else c.tr1

/-- Set the tile rows held by thread 0 or 1 of a core (R101): rows given up and rows gained become zero. -/
def setHolding (c : Core) (ct n : Nat) : Core :=
  if ct = 0 then { zeroRows c (Nat.min c.tr0 n) (Nat.max c.tr0 n) with tr0 := n }
  else { zeroRows c (512 - Nat.max c.tr1 n) (512 - Nat.min c.tr1 n) with tr1 := n }

/-- Does thread 0 or 1 of a core hold a global row (R100)? -/
def Core.holds (c : Core) (ct g : Nat) : Bool :=
  decide (g < 512) && (if ct = 0 then decide (g < c.tr0) else decide (512 ≤ g + c.tr1))

/-- The LAT share that a chunk has changed is taken back (R277, R284): the clusters where nobody has renegotiated since, the rows as
far as the sibling leaves them. -/
def undoShare (ct : Nat) (c : Core)
    (sh : Option (Vector (BitVec 2) 4 × Vector (BitVec 2) 4 × Nat × Option (Vector (BitVec 2) 4))) : Core :=
  match sh with
  | none => c
  | some (was, set, n, next) =>
    let c1 := if c.lc = set then { c with lc := was, lcNext := next } else c
    setHolding c1 ct (Nat.min n (512 - c1.rows (1 - ct)))

/-- Undo records of the rows that a thread holds (R284). -/
def undoHeld (ct : Nat) (c : Core) (l : List (Nat × List (BitVec 32))) : Core := undoRows c (l.filter fun u => c.holds ct u.1)

/-- EVF bits that completions have set stay set over a squash (R254, R284); so does a wake token that has arrived (R88). -/
def keepOver (now old : Arch) : Arch :=
  { old with done := old.done, token := old.token || now.token }

/-- EFF is halved, 1 at the lowest (R287), in every copy of the checkpointed state. -/
def halveEff (t : Thread) : Thread :=
  let f (a : Arch) : Arch := { a with chkEff := Nat.max 1 (a.chkEff / 2) }
  { t with a := f t.a, ckpt := f t.ckpt, ckptOpen := f t.ckptOpen }

/-- EFF returns to LIM (R287), in every copy of the checkpointed state; in a chunk that has written CHKLIM it keeps its value until the
chunk ends (R292). -/
def fullEff (t : Thread) : Thread :=
  let f (a : Arch) : Arch := if a.chkNext.isSome then a else { a with chkEff := a.chkLim }
  { t with a := f t.a, ckpt := f t.ckpt, ckptOpen := f t.ckptOpen }

/-- The escalation of R287 after the n-th squash in a row of a thread's oldest chunk: EFF halves at the 4th to 7th; from the 8th on
the thread wants the slices of the attempt's footprint before it executes again. -/
def escalate (s : State) (foot : List Nat) : State :=
  let n := s.t.squashes
  if 4 ≤ n ∧ n ≤ 7 then modT s halveEff
  else if 8 ≤ n then modT s fun t => { t with wanted := foot }
  else s

/-- The same count of an agent that is no thread. -/
def Effort.squashed (e : Effort) (foot : List Nat) : Effort :=
  { squashes := e.squashes + 1, streak := 0, reserving := false, wanted := if 8 ≤ e.squashes + 1 then foot else [] }

/-- A commit ends the count (R287). -/
def Effort.committed (e : Effort) : Effort := { squashes := 0, streak := e.streak + 1, reserving := false, wanted := [] }

/-- An attempt under a reservation would begin outside it: the slices that it needs there are reserved too before it begins (R287, R288). -/
def Effort.widened (e : Effort) (foot : List Nat) : Effort :=
  { e with reserving := false, wanted := (List.range 16).filter fun sl => e.wanted.contains sl || foot.contains sl }

/-- Agent code of a thread's passes (R420). -/
def passAgent (tid : Nat) : Nat := 1048576 + tid

/-- Agent code of an engine operation (R420). -/
def engineAgent (tid k : Nat) : Nat := 2097152 + 16 * tid + k

/-- What the messages of a discarded chunk had claimed is given back (R253, R316): engine operations that have not begun, and
entries of panels not yet posted. -/
def unclaim (s : State) (out : List Msg) : State :=
  { s with engines := s.engines.filter fun e => !(out.contains (.engine e.tid e.k)),
           panels := s.panels.filter fun p => p.posted || !(out.contains (.post p.tid)) }

/-- The fatal trap that a spoilt history record leads to (R286). -/
def hardwareTrap : Trap := { cause := 15, addr := 0, blame := 0, stream := 0 }

/-- Squash the thread that moves (R283 to R285): from its closed chunk on, or its open chunk alone. A squash of the oldest chunk
counts toward R287; one that needs a spoilt history record makes the thread trap after it (R286). -/
def squash (s : State) (older falsePos : Bool) : State :=
  let t := s.t
  let ct := s.cur % 2
  let old := if older then t.ckpt else t.ckptOpen
  let first := if older then t.closed.getD t.chunk else t.chunk
  let n := if older && t.closed.isSome && !t.chunk.idle then 2 else 1
  let oldest : Bool := older || t.closed.isNone
  let bad := t.chunk.badHist || (older && (t.closed.map Chunk.badHist).getD false)
  let c1 := undoHeld ct (undoShare ct s.c t.chunk.share) t.chunk.undo
  let c2 := match t.closed with
    | some c => if older then undoHeld ct (undoShare ct c1 c.share) c.undo else c1
    | none => c1
  let sls := (t.closed.map fun c => if older then c.slots else []).getD []
  let mended := t.chunk.mended ++ (t.closed.map fun c => if older then c.mended else []).getD []
  let c3 := let c := undoSlots c2 (t.chunk.slots ++ sls); { c with bad := c.bad ++ mended.filter fun k => !c.bad.contains k }
  let out := t.chunk.out ++ (t.closed.map fun c => if older then c.out else []).getD []
  let s1 := unclaim { s with
    c := { c3 with mat := c3.mat.filter fun m => !(m.tid == s.cur && decide (first.num ≤ m.num)) },
    held := s.held.filter fun h => h.2 != s.cur } out
  let s2 := modT s1 fun t =>
    { t with a := keepOver t.a old, ckptOpen := keepOver t.a old, chunk := Chunk.empty old.pc first.num,
             closed := if older then none else t.closed, squashes := if oldest then t.squashes + 1 else t.squashes, streak := 0,
             reserving := false, stall := .none, begun := none, deferred := if bad then some hardwareTrap else t.deferred, run := if t.run = .timed then .running else t.run, parkLeft := none,
             draw := if older && t.closed.isSome then t.drawOld else t.draw, drawOld := if older then none else t.drawOld }
  let s3 := bumpStat (bumpStat s2 1 n) 2 (if falsePos then n else 0)
  let note (s : State) (c : Chunk) : State :=
    traceRec s 4 false c.pc (wd c.num) (wd (b2n falsePos + 2 * b2n (decide (8 ≤ s3.t.squashes))))
  let s4 := if n = 2 then note (note s3 first) t.chunk else note s3 first
  if oldest then escalate s4 (footprint first) else s4

/-- The first element of cluster c at or after 16 × (v div 16) (R212, R220). -/
def clusterFirst (c v : Nat) : Nat := let g := v / 16; 16 * (g + (c + 4 - g % 4) % 4)

/-- The pointer of cluster c: the first element of its next group (R216). -/
def Pass.at (p : Pass) (c : Nat) : Nat := p.next.toList.getD c 0

/-- The clusters that still have a group to issue (R216). -/
def Pass.open (p : Pass) : List Nat := (List.range 4).filter fun c => decide (p.at c < p.len)

/-- The first element that no group before it in element order leaves out: the least of the open clusters' pointers. -/
def Pass.first (p : Pass) : Nat := (p.open.map fun c => p.at c).foldl Nat.min p.len

/-- Cycles that one element of a queue's pass takes (R185). -/
def Pass.rate (p : Pass) : Nat :=
  let first := p.start.toList.foldl Nat.min p.start[0]
  let total := (p.tally.work.map fun x => x.2.useful + x.2.masked).foldl (· + ·) 0
  total / Nat.max 1 (p.first - first)

/-- Cycles that a record's busiest lane of cluster c has taken (R213). -/
def Tally.cycles (t : Tally) (c : Nat) : Nat :=
  (t.work.map fun x => if x.1 / 16 = c then (x.2.span + 11) / 12 else 0).foldl Nat.max 0

/-- USEFUL and MASKED cycles of a record's lanes, by cluster (R223). -/
def Tally.slots (t : Tally) : Vector (Nat × Nat) 4 :=
  (Vector.replicate 4 (0, 0)).mapIdx fun c _ =>
    ((t.work.map fun x => if x.1 / 16 = c then x.2.useful else 0).foldl (· + ·) 0,
     (t.work.map fun x => if x.1 / 16 = c then x.2.masked else 0).foldl (· + ·) 0)

/-- Cycles of cluster c from one state of a pass to a later one: its busiest lane's, or in a queue's pass those of all its elements in lockstep
(R185, R213). -/
def Pass.spent (was now : Pass) (c : Nat) : Nat :=
  if now.xq then now.rate * (now.first - was.first) else now.tally.cycles c - was.tally.cycles c

/-- A pass rolled back from how it stands to a former state: the time of the discarded groups is kept, and counts as STALLED (R224). -/
def Pass.back (was now : Pass) : Pass :=
  { was with clock := now.clock, watch := [],
             lost := was.lost.mapIdx fun c n => Nat.max n (now.lost.toList.getD c 0) + was.spent now c }

/-- The words of a vector of element indices (R415, R420). -/
def vecWords (v : Vector Nat 4) : Word × Word := (wd (v[0] + v[1] * 2 ^ 32), wd (v[2] + v[3] * 2 ^ 32))

/-- The SQUASH record of a pass chunk (R415). -/
def traceSquash (s : State) (lvl : Level) (p : Pass) : State :=
  traceAt lvl s 4 true p.fpc (vecWords p.next).1 (vecWords p.next).2

/-- Discard the open pass chunk of the thread that moves (R284): the pass restarts at the chunk's start vector, and the slots of the
discarded groups count as STALLED (R224). -/
def squashPass (s : State) (falsePos : Bool) : State :=
  match s.t.passCkpt with
  | none => s
  | some (p, f) =>
    let foot := ((s.t.sealed.map footprint).getD [])
    let bad := (s.t.sealed.map Chunk.badHist).getD false
    let s1 := modT s fun t => { t with sealed := none, passCkpt := none, pass := some (p.back (s.t.pass.getD p)),
                                       a := { t.a with fstat := f }, passEffort := t.passEffort.squashed foot,
                                       deferred := if bad then some hardwareTrap else t.deferred }
    let s1 := { s1 with held := s1.held.filter fun h => h.2 != passAgent s1.cur }
    let n := s1.t.passEffort.squashes
    let s2 := if 4 ≤ n ∧ n ≤ 7 then modT s1 halveEff else s1
    traceSquash (bumpStat (bumpStat s2 1 1) 2 (b2n falsePos)) s2.t.lvl p

/-- Discard the uncommitted chunk of an engine operation of the thread that moves (R284): it restarts at its position. -/
def squashEngine (s : State) (k : Nat) (falsePos : Bool) : State :=
  let f (e : EngineOp) : EngineOp :=
    if e.tid = s.cur ∧ e.k = k then
      { e with chunk := none, effort := e.effort.squashed ((e.chunk.map footprint).getD []) } else e
  bumpStat (bumpStat { s with engines := s.engines.map f, held := s.held.filter fun h => h.2 != engineAgent s.cur k } 1 1) 2
    (b2n falsePos)

/-- Add to lane-cycle counter k of cluster c (R52). -/
def addLane (s : State) (c k : Nat) (n : Word) : State :=
  modT s fun t => { t with lanes := t.lanes.setIfInBounds (5 * c + k) (t.lanes.toList.getD (5 * c + k) 0 + n) }

/-- USEFUL and MASKED slots of discarded groups become STALLED (R224). -/
def stallSlots (s : State) (v : Vector (Nat × Nat) 4) : State :=
  (List.range 4).foldl (fun s c =>
    let x := v.toList.getD c (0, 0)
    addLane (addLane (addLane s c 0 (0 - wd x.1)) c 1 (0 - wd x.2)) c 4 (wd (x.1 + x.2))) s

/-- Discard the last chunk of a completed pass (R159, R284): it has still to run again, and its slots count as STALLED (R224). A spoilt history
record makes the thread trap (R286). -/
def dropSealed (s : State) (falsePos : Bool) : State :=
  match s.t.redo with
  | none => s
  | some r => match r.chunk with
    | none => s
    | some c =>
      let e := r.effort.squashed (footprint c)
      let s1 := modT s fun t =>
        { t with redo := some { r with chunk := none, effort := e }, passEffort := { t.passEffort with streak := 0 },
                 deferred := if c.badHist then some hardwareTrap else t.deferred }
      let s2 := { s1 with held := s1.held.filter fun h => h.2 != passAgent s1.cur }
      let s3 := if 4 ≤ e.squashes ∧ e.squashes ≤ 7 then modT s2 halveEff else s2
      traceSquash (bumpStat (bumpStat (stallSlots s3 r.slots) 1 1) 2 (b2n falsePos)) r.lvl r.p

/-- Test the uncommitted chunks of one thread, of its pass and of its engine operations against a broadcast write signature and
squash what intersects (R283), the younger chunk of the committing agent too; local items meet only those of agents that reach the same
bytes (R247). An agent that holds its grants by a reservation ignores the broadcast. `long`: a write list was too long to travel (R285). -/
def broadcastTo (agent : Nat) (long : Bool) (wl wg : List Nat) (s : State) (tid : Nat) : State :=
  let l := wl.filter (seenFrom (coreOf tid) 64)
  let g := wg.filter (seenFrom (coreOf tid) 4096)
  let seen (c : Chunk) : Chunk := if agent = 16777215 then c else c.seenBy (agentCore agent)
  let wrong (c : Chunk) : Bool := !(long || trulyHits l g (seen c))
  onThread s tid fun s =>
    let s1 :=
      if s.t.reserving = true then s
      else match s.t.closed with
        | some c =>
          if sigHits l g (seen c) then squash s true (wrong c)
          else if sigHits l g (seen s.t.chunk) then squash s false (wrong s.t.chunk) else s
        | none => if sigHits l g (seen s.t.chunk) then squash s false (wrong s.t.chunk) else s
    let s2 := match s1.t.sealed with
      | none => s1
      | some c =>
        if s1.t.passEffort.reserving = false ∧ sigHits l g (seen c) = true then squashPass s1 (wrong c) else s1
    let s3 := match s2.t.redo.bind Redo.chunk with
      | none => s2
      | some (c : Chunk) =>
        if (s2.t.redo.any fun (r : Redo) => r.effort.reserving) = false ∧ sigHits l g (seen c) = true then dropSealed s2 (wrong c) else s2
    s3.engines.foldl (fun s e => match e.chunk with
      | none => s
      | some c =>
        if e.tid = tid ∧ e.effort.reserving = false ∧ sigHits l g (seen c) = true
        then squashEngine s e.k (wrong c) else s) s3

/-- Broadcast a write signature to every core (R281, R283); a relocking core accumulates it (R136). Its exact list travels with it
when it holds at most 64 items (R285). -/
def broadcast (s : State) (agent : Nat) (wl wg : List Nat) : State :=
  if wl.isEmpty && wg.isEmpty then s else
    let long : Bool := decide (64 < wl.length + wg.length)
    (liveTids s).foldl (fun s tid =>
      let c := coreAt s (coreOf tid)
      if c.relock.isSome then
        putCore s (coreOf tid) { c with sigL := wl.foldl addItem c.sigL, sigG := wg.foldl addItem c.sigG,
                                        sigLong := c.sigLong || long }
      else broadcastTo agent long wl wg s tid) s

/-- A commit writes a line that a WAITV watches (R306). -/
def wakeWaiters (s : State) (lines : List Nat) : State :=
  if lines.isEmpty then s else
    let f (t : Thread) : Thread := match t.stall with
      | .waitv l false => if lines.contains l then { t with stall := .waitv l true } else t
      | _ => t
    { s with t := f s.t, threads := s.threads.map fun e => (e.1, f e.2) }

/-- Offset of a domain address in its module (R366). -/
def domainOffset (da : Word) : Word := wd (da.toNat % 1125899906842624)

/-- A packet leaves. One to this module itself is performed here, after what has left before it (R373); without a route it is lost and goes
unanswered (R364, R382). -/
def sendPacket (s : State) (m : Msg) (da : Word) (i : Instr) : State :=
  if fld da 50 11 ≠ moduleNo then { s with outbound := s.outbound ++ [m] }
  else if fld (devGet s (0x40000C60000 + 8 * moduleNo)) 0 24 = 0 then s
  else { s with outbound := s.outbound ++ [m], agenda := s.agenda ++ [.own m i] }

/-- A remote write leaves (R373). -/
def sendWrite (s : State) (m : Msg) (da : Word) (i : Instr) : State :=
  modT (sendPacket s m da i) fun t => { t with unacked := t.unacked + 1, sent := t.sent ++ [(da, t.vfid)] }

/-- What has come back for a packet of a thread of this module to itself: the event that brings it, with the thread and the packet's address. -/
def ownAnswer (m back : Msg) : Option Instr :=
  match m, back with
  | .request tid _ _ _ _ _, .response smod _ cause v => if smod = moduleNo then some (.remoteResponse tid cause v) else none
  | .rst tid da _ _, .ack smod _ cause _ => if smod = moduleNo then some (.remoteAcknowledgement tid cause da) else none
  | .rred tid da _ _ _ _, .ack smod _ cause _ => if smod = moduleNo then some (.remoteAcknowledgement tid cause da) else none
  | _, _ => none

/-- A packet of this module to itself has been performed (R371): its response or acknowledgement, the last message to leave, goes to the thread that has
sent it, and the packet is done with. -/
def ownReturn (m : Msg) (s t : State) : State :=
  if t.outbound.length ≤ s.outbound.length then t else
    match t.outbound.getLast?.bind (ownAnswer m) with
    | none => t
    | some i => { t with outbound := t.outbound.dropLast.erase m, agenda := t.agenda ++ [.event i] }

/-- A message leaves at the commit of its chunk (R284). -/
def sendMsg (s : State) (m : Msg) : State :=
  match m with
  | .wake src dst _ _ _ => { s with wakes := s.wakes ++ [m], agenda := s.agenda ++ [.event (.wakeDelivery src dst)] }
  | .post p => postPanel s p
  | .depset i v => depset s i v
  | .depdec i => depdec s i
  | .wmpub i v => wmSet s i v
  | .item q lo hi _ => pushItem s q { lo := lo, hi := hi, place := none }
  | .engine tid k =>
    { s with engines := s.engines.map fun e => if e.tid = tid ∧ e.k = k then { e with go := true } else e,
             agenda := s.agenda ++ [.event (.engineOperation tid k)] }
  | .rst _ da n v => sendWrite s m da (.rstPacket moduleNo s.t.vfid (domainOffset da) n v)
  | .rred _ da ty sc mask data => sendWrite s m da (.rredPacket moduleNo s.t.vfid (domainOffset da) ty sc mask data)
  | .remoteItem _ vf q _ _ _ =>
    let k := vf * 2097152 + q
    { s with outbound := s.outbound ++ [m], credits := spPut s.credits k (spGet 0 s.credits k - 1) }
  | .request _ da kind n x e => sendPacket s m da
    (if kind = 0 then .rldRequest moduleNo s.t.vfid (domainOffset da) n
     else .ramoRequest moduleNo s.t.vfid (domainOffset da) (kind - 1) x e)
  | .response _ _ _ _ => { s with outbound := s.outbound ++ [m] }
  | .ack _ _ _ _ => { s with outbound := s.outbound ++ [m] }
  | .accepted _ _ _ => { s with outbound := s.outbound ++ [m] }
  | .placeBack _ _ => { s with outbound := s.outbound ++ [m] }
  | .abort _ _ => { s with outbound := s.outbound ++ [m] }
  | .resetNotice _ => { s with outbound := s.outbound ++ [m] }
  | .hostRead _ _ => { s with outbound := s.outbound ++ [m] }

/-- Does a committed register write act next? -/
def Due.isAct (d : Due) : Bool :=
  match d with
  | .act _ _ => true
  | _ => false

/-- A doorbell that a thread rings is a write of its register, which no host makes. -/
def ownDoorbell (pa : Nat) (v : Word) (i : Instr) : Instr :=
  match i with
  | .dbhi _ _ => .registerWrite pa v
  | i => i

/-- How a committed register write acts (R378): one of DBHI sends its doorbell without a port (R380). -/
def writeEvent (cur pa : Nat) (v : Word) : Instr := ownDoorbell pa v (devEvent cur pa v)

/-- Committed register writes act before anything else (R378), those of older chunks first. -/
def devWrites (s : State) (l : List (Nat × Word)) : State :=
  { s with agenda := s.agenda.takeWhile Due.isAct ++ l.map (fun e => Due.act s.cur (writeEvent s.cur e.1 e.2)) ++
      s.agenda.dropWhile Due.isAct }

/-- The exact items that a commit saturates in a MEMSUM record (R415). -/
def sat16 (n : Nat) : Nat := Nat.min n 0xFFFF

/-- The MEMSUM and COMMIT records of a chunk (R415): the last two words are the payload of COMMIT. -/
def traceCommit (lvl : Level) (s : State) (pass : Bool) (pc : Nat) (c : Chunk) (d2 d3 : Word) : State :=
  traceAt lvl (traceAt lvl s 2 pass pc (wd (sat16 c.readL.length * 2 ^ 48 + sat16 c.writeL.length * 2 ^ 32 +
    sat16 c.readG.length * 2 ^ 16 + sat16 c.writeG.length)) (wd c.num)) 3 pass pc d2 d3

/-- The home slice of an agent, at which a chunk with an empty set is logged (R421). -/
def homeSlice (agent : Nat) : Nat :=
  let c := agentCore agent
  if c < 160 then 4 * dieOf c + loomOf c % 5 % 4 else c % 16

/-- The record that a slice follows next in a replay (R423): a grant, or an arrival in its sequence. -/
def nextGrant (s : State) (sl : Nat) : Option JRec := s.journal.find? fun r => (r.kind == 2 || r.kind == 4) && r.slice == sl

/-- The number of a thread's first chunk that has not committed. -/
def uncommitted (t : Thread) : Nat := (t.closed.map Chunk.num).getD t.chunk.num

/-- Records up to those of all of a list of slices. -/
def grantRun (own : List Nat) : List JRec → List JRec
  | [] => []
  | r :: l =>
    let rest := own.filter (· != r.slice)
    r :: (if rest.isEmpty then [] else grantRun rest l)

/-- The GRANT records of a chunk that a replay meets next, of the slices of its set and of what its reservation took beside them: the numbers of an
agent's chunks come again with its next start (R270), and a chunk's records stand together, those of its set last (log entry 149). -/
def grantsOf (s : State) (agent num : Nat) (own : List Nat) : List JRec :=
  let mine (r : JRec) : Bool := r.kind == 2 && r.agent == agent && r.num == wd num
  if !(replaying s) then [] else grantRun own ((s.journal.dropWhile fun r => !mine r).takeWhile mine)

/-- A chunk is granted by slices (R281), those of its set and what its reservation holds beside them: recording logs it at each of them (R421). A
replay grants only the chunk that the next record of each of them names, and once that is so diverges where the chunk has not come to the recorded
extent or slices (R423, R424). -/
def takeGrants (s : State) (agent num : Nat) (own spare : List Nat) (ext : List Word) : State :=
  if !(replaying s) then (spare ++ own).foldl (fun s sl => journal s 2 sl agent num ext) s
  else
    let rs := grantsOf s agent num own
    match rs with
    | [] => { s with outOfTurn := true }
    | r :: _ =>
      if !(rs.all fun x => nextGrant s x.slice == some x) then { s with outOfTurn := true }
      else if (r.dw.drop 2).take ext.length ≠ ext ∨ !(own.all fun sl => rs.any fun x => x.slice == sl)
      then { s with outOfTurn := true, unreached := s.unreached.or (some (agent, num, r.off)) }
      else rs.foldl consume s

/-- A chunk of an agent of the thread that moves takes its grants, those of its reservation among them, is logged with its extent (R420, R421),
broadcasts, writes and releases them (R281). Where another agent holds one of its slices the step that commits it does not take place: it
waits (R281, R287). -/
def commitItems (s : State) (agent : Nat) (c : Chunk) (ext : List Word) : State :=
  let own := footprint c
  let spare := (List.range 16).filter fun sl => !own.contains sl && s.held.contains (sl, agent)
  let foot := (List.range 16).filter fun sl => own.contains sl || spare.contains sl
  let s := if s.held.any fun h => h.2 != agent && foot.contains h.1 then { s with outOfTurn := true } else s
  let s0 := takeGrants (settleRecs s agent c) agent c.num (if own.isEmpty then [homeSlice agent] else own)
    (if own.isEmpty then spare.filter (· != homeSlice agent) else spare) ext
  let s1 := if foot.isEmpty then s0 else { s0 with grantLog := (agent, c.num, foot) :: s0.grantLog }
  let s2 := broadcast s1 agent c.writeL c.writeG
  let lines := (c.writes.map fun e => e.1 / 64) ++ c.dev.map fun e => e.1 / 64
  let s3 := wakeWaiters (pokeAll s2 c.writes.reverse) lines.eraseDups
  let s4 := c.out.foldl sendMsg { s3 with held := s3.held.filter fun h => h.2 != agent }
  devWrites s4 c.dev

/-- Flags enter FSTAT in every copy of the checkpointed state, that of a pass chunk too. -/
def raiseAll (t : Thread) (f : BitVec 6) : Thread :=
  let g (a : Arch) : Arch := { a with fstat := a.fstat ||| f }
  { t with a := g t.a, ckpt := g t.ckpt, ckptOpen := g t.ckptOpen, passCkpt := t.passCkpt.map fun q => (q.1, q.2 ||| f) }

/-- What is left of a completed pass after the commit of its chunk: the rest of one that has run again and closed early (R287). -/
def Redo.after (r : Redo) : Option Redo :=
  r.rest.map fun q => { r with p := q, chunk := none, rest := none, flags := 0, effort := r.effort.committed }

/-- The last chunk of a completed pass of the thread that moves commits (R148, R158), its flags in FSTAT (R82). -/
def commitSealed (s : State) : State :=
  match s.t.redo with
  | none => s
  | some r => match r.chunk with
    | none => s
    | some c =>
      let n := s.t.passEffort.streak + 1
      let s1 := modT s fun t =>
        let t1 := { raiseAll t r.flags with redo := r.after, passEffort := { t.passEffort with streak := n } }
        if 64 ≤ n then fullEff t1 else t1
      let w := vecWords ((r.rest.map Pass.next).getD r.stop)
      commitItems (traceCommit r.lvl (bumpStat s1 0 1) true r.p.fpc c w.1 w.2) (passAgent s1.cur) c [w.1, w.2]

/-- The pass chunk of the thread that moves commits (R158, R281); the vector is what COMMIT records. -/
def commitPass (s : State) (pc : Nat) (v : Vector Nat 4) : State :=
  match s.t.sealed with
  | none => s
  | some c =>
    let s1 := modT s fun t =>
      let t1 := { t with sealed := none, passCkpt := none, passEffort := t.passEffort.committed,
                         pass := t.pass.map fun p => { p with chunks := p.chunks + 1, ends := [] } }
      if 64 ≤ t1.passEffort.streak then fullEff t1 else t1
    let w := vecWords v
    commitItems (traceCommit s1.t.lvl (bumpStat s1 0 1) true pc c w.1 w.2) (passAgent s1.cur) c [w.1, w.2]

/-- Does the last chunk of a completed pass read what a chunk of its thread writes? It then commits first: the pass has read what the
instructions before that store have left (R149, R299). -/
def readBefore (t : Thread) (c : Chunk) : Bool :=
  (t.redo.bind Redo.chunk).any fun r => sigMeets c.writeL c.writeG r.readL r.readG

/-- The closed chunk of the thread that moves commits. After 64 commits with no squash EFF returns to LIM (R287). -/
def commitClosed (s : State) : State :=
  match s.t.closed with
  | none => s
  | some c =>
    let s0 := if readBefore s.t c then commitSealed s else s
    let s1 := modT s0 fun t =>
      let t1 := { t with closed := none, ckpt := t.ckptOpen, squashes := 0, streak := t.streak + 1, reserving := false,
                         wanted := [], drawOld := none }
      if 64 ≤ t1.streak then fullEff t1 else t1
    commitItems (traceCommit s1.t.lvl (bumpStat s1 0 1) false c.pc c (wd c.num) (wd c.count)) s1.cur c [wd c.count]

/-- The open chunk closes; the older chunk commits first (R270). EFF set for the next chunk comes into force (R292). -/
def closeOpen (s : State) : State :=
  let s1 := commitClosed s
  if s1.t.chunk.idle then s1 else
  let a := match s1.t.a.chkNext with
    | none => s1.t.a
    | some e => { s1.t.a with chkEff := e, chkNext := none }
  modT s1 fun t => { t with a := a, ckptOpen := a, closed := some t.chunk, chunk := Chunk.empty a.pc (t.chunk.num + 1),
                            draw := none, drawOld := t.draw }

/-- The open chunk closes and commits: "closes the open chunk and waits for it to commit". -/
def commitOpen (s : State) : State := commitClosed (closeOpen s)

/-- Have uncommitted chunks of the thread that moves written device registers (R378)? -/
def writesDevices (s : State) : Bool := !s.t.chunk.dev.isEmpty || s.t.closed.any fun c => !c.dev.isEmpty

/-- The open chunk closes and its commit is left for later (R270, R281); one that holds its slices by a reservation commits at once, which
ends the hold (R288). -/
def closeLater (s : State) : State :=
  if s.t.reserving then commitOpen s else
    let s1 := closeOpen s
    { s1 with agenda := s1.agenda ++ [.event (.chunkCommit s1.cur)] }

/-- An agent takes every slice that it wants, in ascending order, and counts the reservation for its thread (R287). -/
def takeSlices (s : State) (agent : Nat) (l : List Nat) : State :=
  bumpStat { s with held := l.map (fun sl => (sl, agent)) ++ s.held } 3 1

/-- Are slices free of other agents' reservations? -/
def slicesFree (s : State) (l : List Nat) : Bool := s.held.all fun h => !l.contains h.1

/-- The thread that moves reserves before it executes again (R287), where the slices are free: a reservation waits as a commit
does. -/
def reserve (s : State) : State :=
  if s.t.wanted.isEmpty || s.t.reserving || !slicesFree s s.t.wanted then s
  else takeSlices (modT s fun t => { t with reserving := true }) s.cur s.t.wanted

/-- Must the thread that moves wait before it executes again, its slices held by another agent? -/
def mustWait (s : State) : Bool := !s.t.wanted.isEmpty && !s.t.reserving

/-- Has the open chunk of a reserving thread gone outside its slices (R287)? -/
def outside (s : State) : Bool :=
  s.t.reserving && !((footprint s.t.chunk).all fun sl => s.held.contains (sl, s.cur))

/-- Enter a read of lines in the read signature (R278). -/
def noteRead (s : State) (lines : List Nat) : State :=
  modT s fun t => { t with chunk := { t.chunk with readL := lines.foldl addItem t.chunk.readL } }

/-- Enter a write of lines in the write signature (R278). -/
def noteWrite (s : State) (lines : List Nat) : State :=
  modT s fun t => { t with chunk := { t.chunk with writeL := lines.foldl addItem t.chunk.writeL } }

/-- Put bytes into a chunk's commit-buffer entries (R274). -/
def Chunk.put (c : Chunk) (k : Nat) (b : List Byte) : Chunk :=
  { c with writes := (keyed k b).reverse ++ c.writes, lines := (linesOf k b.length).foldl addItem c.lines }

/-- Put bytes into the open chunk's commit buffer (R274). -/
def bufferWrite (s : State) (k : Nat) (b : List Byte) : State := modT s fun t => { t with chunk := t.chunk.put k b }

/-- A vector or mask register is changed in place (R276): its prior contents are logged once in the open chunk. -/
def logReg (s : State) (r : Nat) : State := modT s fun t => { t with chunk := { t.chunk with hist := addItem t.chunk.hist r } }

/-- Bytes of history that a chunk has logged (R276): 2 KiB for a vector register, 64 bytes for a mask register, 512 for a tile
row. -/
def Chunk.history (c : Chunk) : Nat :=
  (c.hist.map fun r => if r < 32 then 2048 else 64).foldl (· + ·) 0 + 512 * (c.undo.length - c.given.length)

/-- Bytes of history that a thread holds with its pass (R276): a pass in flight takes 256. -/
def historyUse (t : Thread) : Nat :=
  t.chunk.history + ((t.closed.map Chunk.history).getD 0) + (if t.pass.isSome then 256 else 0)

/-- Bytes for the rows that steps of a thread's uncommitted chunks are still to write (R226): a record at the chunk's first write of a row
alone (R276). -/
def stepHistory (c : Core) (tid : Nat) (t : Thread) : Nat :=
  let logged (m : MatStep) : Bool :=
    (m.num == t.chunk.num && t.chunk.undo.any fun u => u.1 == m.row) ||
    (t.closed.map fun x => x.num == m.num && x.undo.any fun u => u.1 == m.row).getD false
  let l := c.mat.filter fun m => m.tid == tid && decide (((t.closed.getD t.chunk).num) ≤ m.num) && !logged m
  512 * (l.map fun m => (m.num, m.row)).eraseDups.length

/-- Have the threads of the core logged more than the history buffer takes (R276)? 16 KiB each are their own, and 32 KiB more are
shared. A steward has no history buffer and logs nothing. -/
def historyFull (s : State) : Bool :=
  !isSteward s.cur &&
  (let own := historyUse s.t + stepHistory s.c s.cur s.t
   let o := siblingOf s.cur
   decide (16384 < own) &&
   decide (32768 < own - 16384 + (historyUse (threadAt s o) + stepHistory s.c o (threadAt s o) - 16384)))

/-- Commit-buffer entries of a thread's own chunks (R274). -/
def threadEntries (t : Thread) : Nat := t.chunk.lines.length + ((t.closed.map fun c => c.lines.length).getD 0)

/-- Commit-buffer entries of its passes. -/
def passEntries (t : Thread) : Nat :=
  ((t.sealed.map fun c => c.lines.length).getD 0) + (((t.redo.bind Redo.chunk).map fun c => c.lines.length).getD 0)

/-- The agents of one core that draw on its commit buffer (R270, R275). -/
inductive Drawer where
  /-- The thread. -/
  | thread (tid : Nat)
  /-- Its passes. -/
  | passes (tid : Nat)
  /-- Its engine operation on a flag. -/
  | engine (tid k : Nat)
  deriving DecidableEq, Repr

/-- The commit-buffer entries that each agent of a core has; an operation that is issued is one (R253). -/
def drawers (s : State) (core : Nat) : List (Drawer × Nat) :=
  let own (tid : Nat) : List (Drawer × Nat) :=
    (.thread tid, threadEntries (threadAt s tid)) :: (if isSteward tid then [] else [(.passes tid, passEntries (threadAt s tid))])
  (if core < 160 then own (2 * core) ++ own (2 * core + 1) else own (160 + core)) ++
  (s.engines.filter fun e => coreOf e.tid == core).map fun e => (.engine e.tid e.k, (e.chunk.map fun c => c.lines.length).getD 0)

/-- Commit-buffer entries of a core (R274). -/
def bufferSize (core : Nat) : Nat := if core < 160 then 4096 else 512

/-- Entries that the core of the thread that moves has for one of its agents (R275): the others keep what they hold, and are held back as
many as let each of them open a chunk of 64 lines. Where a core has more agents than that allows, an agent takes 64 as they become free. -/
def entriesFor (s : State) (d : Drawer) : Nat :=
  let core := coreOf s.cur
  let others := ((drawers s core).filter fun x => x.1 != d).map Prod.snd
  let free := bufferSize core - others.foldl (· + ·) 0
  let back := (others.map fun n => 64 - n).foldl (· + ·) 0
  if back + 64 ≤ free then free - back else Nat.min free 64

/-- Does the open chunk hold more entries than its core can give (R275)? -/
def entriesFull (s : State) : Bool :=
  decide (Nat.max 64 (entriesFor s (.thread s.cur)) < threadEntries s.t)

/-- The closings that come about at an instruction boundary by themselves, after the instruction: occupancy, which counts in
CAPCLOSE, and the limit (R272, R273, R278, R293); in a replay the recorded extent (R423). -/
def boundaryClose (s : State) : State :=
  if s.t.chunk.count = 0 then s
  else if replaying s then closeLater s
  else if overOccupied s.t.chunk then closeLater (bumpStat s 4 1)
  else if s.t.a.chkEff ≤ s.t.chunk.count then closeLater s
  else s

end Sys2Proof.Machine
end

