-- ==== Sys2Proof/Machine/Access.lean ====
section
/-! DEFINITION. Machine/Access.lean: scalar accesses of the thread that moves (R118 to R124), block accesses of the other
agents, and data watchpoints (R411). -/

namespace Sys2Proof.Machine

open Sys2Proof

/-- A fault of an access at an address. -/
def flt (cause : Nat) (a : Word) : Flt := { cause := cause, addr := a, toH := false }

/-- Does a byte come from the thread's own uncommitted stores? DESIGN CHOICE (log entry 100): such a byte of a poisoned line meets no
error, since R119 does not say what a read meets whose bytes all come from there. -/
def ownByte (s : State) (k : Nat) : Bool :=
  (s.t.chunk.writes.any fun e => e.1 == k) || ((s.t.closed.map fun c => c.writes.any fun e => e.1 == k).getD false)

/-- Does a read of n bytes meet an uncorrectable error (R119)? DESIGN CHOICE (log entry 100) for the thread's own bytes. -/
def meetsPoison (s : State) (k n : Nat) : Bool :=
  !s.poison.isEmpty && (List.range n).any fun i => isPoisoned s (k + i) && !ownByte s (k + i)

/-- Is it a byte of the owner table (R381), which holds one byte per block? -/
def isOwnerByte (k : Nat) : Bool := decide (0x40000C20000 ≤ k) && decide (k < 0x40000C20300)

/-- Must an access of n bytes at a place wait for the last chunk of a completed pass, since a FENCE.VS or FENCE.ALL stands between them and that
chunk writes one of the bytes (R301)? -/
def governed (s : State) (k n : Nat) : Bool :=
  s.t.redo.any fun r => r.vs && ((r.chunk.map Chunk.writes).getD []).any fun e => decide (k ≤ e.1) && decide (e.1 < k + n)

/-- An access that a fence governs does not take place before that chunk has committed: its step waits. -/
def ordered (s : State) (k n : Nat) : State := if governed s k n then { s with outOfTurn := true } else s

/-- Read n bytes at a place of the module: its value, entered in the read signature, or a cause code. An entry of the owner table is read as a
byte, or eight of them as a doubleword (DESIGN CHOICE, log entry 117). -/
def readPlace (s : State) (k n : Nat) : State × Except Nat Nat :=
  if isDevice k then
    if isOwnerByte k ∧ n = 1 then
      (let r := volatileRead (useFree s) (wd (ownerByte s (k - 0x40000C20000)))
       (r.2, .ok r.1.toNat))
    else if n ≠ 8 then (s, .error 3)
    else match devRead s k with
      | none => (s, .error 3)
      | some v =>
        let r := volatileRead (useFree s) v
        (if isCounter k then devPut r.2 k r.1 else r.2, .ok r.1.toNat)
  else
    if meetsPoison s k n then (s, .error 8)
    else (noteRead (ordered s k n) (linesOf k n), .ok (leNat (viewByte s) k n))

/-- Write n bytes at a place of the module into the open chunk, or a cause code. The owner table takes a byte, or an aligned doubleword as
eight of them (DESIGN CHOICE, log entry 117). -/
def writePlace (s : State) (k n v : Nat) : State × Except Nat Unit :=
  if isDevice k then
    if isOwnerByte k ∧ (n = 1 ∨ (n = 8 ∧ k % 8 = 0)) then
      (modT s fun t => { t with chunk := { t.chunk with
        dev := t.chunk.dev ++ (keyed k (leBytes n v)).map fun e => (e.1, e.2.setWidth 64) } }, .ok ())
    else if n ≠ 8 ∨ (devReg k).isNone then (s, .error 3)
    else if hOnly k ∧ s.t.lvl ≠ .h then (s, .ok ())
    else (modT s fun t => { t with chunk := { t.chunk with dev := t.chunk.dev ++ [(k, wd v)] } }, .ok ())
  else
    (bufferWrite (noteWrite (ordered s k n) (linesOf k n)) k (leBytes n v), .ok ())

/-- A scalar read of n bytes that lie in one page: the number they hold, or the fault (R118, R119). -/
def loadNat (s : State) (va : Word) (n : Nat) : State × Except Flt Nat :=
  match translate s (who s) .read va with
  | (s1, .error f) => (s1, .error f)
  | (s1, .ok k) => match readPlace s1 k n with
    | (s2, .error c) => (s2, .error (flt c va))
    | (s2, .ok v) => (s2, .ok v)

/-- A scalar write of n bytes that lie in one page (R118, R119). -/
def storeNat (s : State) (va : Word) (n v : Nat) : State × Except Flt Unit :=
  match translate s (who s) .write va with
  | (s1, .error f) => (s1, .error f)
  | (s1, .ok k) => match writePlace s1 k n v with
    | (s2, .error c) => (s2, .error (flt c va))
    | (s2, .ok u) => (s2, .ok u)

/-- The bytes of an image or record of n lines of 64 bytes, read as scalar reads; the first fault stops it. -/
def loadLines (s : State) (va : Word) : Nat → State × Except Flt (List Byte)
  | 0 => (s, .ok [])
  | n + 1 => match loadNat s va 64 with
    | (s1, .error f) => (s1, .error f)
    | (s1, .ok v) => match loadLines s1 (va + 64) n with
      | (s2, .error f) => (s2, .error f)
      | (s2, .ok l) => (s2, .ok (leBytes 64 v ++ l))

/-- The number held by a list of bytes, least significant first. -/
def bytesNat (l : List Byte) : Nat := l.foldr (fun b n => b.toNat + 256 * n) 0

/-- A data watchpoint j of a thread matches an access of n bytes (R411): levels U and S only (R409). -/
def watchMatch (s : State) (lvl : Level) (j : Nat) (va : Word) (n : Nat) (rd wrt vec : Bool) : Bool :=
  let w := devGet s (paDebug s.cur (0x28 + 16 * j))
  let a := (devGet s (paDebug s.cur (0x20 + 16 * j))).toNat
  let size := fld w 0 6
  let base := a / 2 ^ size * 2 ^ size
  decide (fld w 63 1 = 1) && decide (size ≤ 52) &&
  ((decide (fld w 62 1 = 1) && rd) || (decide (fld w 61 1 = 1) && wrt)) &&
  (if vec then decide (fld w 59 1 = 1) else decide (fld w 60 1 = 1)) &&
  ((decide (fld w 58 1 = 1) && lvl == .u) || (decide (fld w 57 1 = 1) && lvl == .s)) &&
  decide (base < va.toNat + n) && decide (va.toNat < base + 2 ^ size)

/-- Does any data watchpoint match a scalar access? No matching takes place at H (R409). -/
def watched (s : State) (va : Word) (n : Nat) (rd wrt : Bool) : Bool :=
  if s.t.lvl = .h then false
  else watchMatch s s.t.lvl 0 va n rd wrt false || watchMatch s s.t.lvl 1 va n rd wrt false

/-- Read one byte for an agent other than a thread's scalar side (R252, R371): its place, or a cause code. -/
def agentRead (s : State) (w : Who) (va : Word) : State × Except Nat Nat :=
  match demand s w .read va with
  | (s1, .error f) => (s1, .error f.cause)
  | (s1, .ok k) =>
    if isDevice k then (s1, .error 3) else if isPoisoned s1 k then (s1, .error 8) else (s1, .ok k)

/-- The place that an agent other than a thread's scalar side writes. -/
def agentWrite (s : State) (w : Who) (va : Word) : State × Except Nat Nat :=
  match demand s w .write va with
  | (s1, .error f) => (s1, .error f.cause)
  | (s1, .ok k) => if isDevice k then (s1, .error 3) else (s1, .ok k)

/-- A byte as an agent with a chunk of its own sees it. -/
def chunkByte (s : State) (c : Chunk) (k : Nat) : Byte :=
  match c.writes.find? fun e => e.1 == k with
  | some e => e.2
  | none => memByte s k

/-- Put a byte into an agent's chunk, its granule into the write signature. -/
def chunkPut (c : Chunk) (k : Nat) (b : Byte) : Chunk :=
  { c with writes := (k, b) :: c.writes, lines := addItem c.lines (k / 64), writeG := addItem c.writeG (k / 4096) }

end Sys2Proof.Machine
end

