-- ==== Sys2Proof/Machine/Copy.lean ====
section
/-! DEFINITION. Machine/Copy.lean: shape records (R197, R198) and the copy engines (R252 to R259). -/

namespace Sys2Proof.Machine

open Sys2Proof

/-- A shape record from its 64 bytes as a number (R197). -/
def shapeOf (v : Nat) : Shape :=
  let f (off n : Nat) : Nat := v / 2 ^ (8 * off) % 2 ^ (8 * n)
  { n0 := f 0 4, n1 := f 4 4, n2 := f 8 4, n3 := f 12 4, s0 := wd (f 16 8), s1 := wd (f 24 8), s2 := wd (f 32 8),
    s3 := wd (f 40 8) }

/-- The product of the four counts (R197). -/
def Shape.size (r : Shape) : Nat := r.n0 * r.n1 * r.n2 * r.n3

/-- The offset of element e from the base (R195, R197). -/
def Shape.offset (r : Shape) (e : Nat) : Word :=
  wd (e % r.n0) * r.s0 + wd (e / r.n0 % r.n1) * r.s1 + wd (e / (r.n0 * r.n1) % r.n2) * r.s2 +
  wd (e / (r.n0 * r.n1 * r.n2)) * r.s3

/-- The CAUSE of a status word for a fault cause (R255). -/
def statusCause (cause : Nat) : Nat := if cause = 3 then 1 else if cause = 4 then 2 else if cause = 5 then 3 else 4

/-- A status word (R255). -/
def statusWord (cause side : Nat) (a : Word) : Word := wd (cause * 2 ^ 60 + side * 2 ^ 59 + a.toNat % 2 ^ 52)

/-- Bytes of an operation. -/
def EngineOp.size (o : EngineOp) : Nat :=
  match o.shapes with
  | none => o.count
  | some (a, b) => Nat.min a.size b.size

/-- A linear copy runs down from the top where the destination overlaps the source from above, so that each source byte
is read before it is overwritten (R257). -/
def EngineOp.down (o : EngineOp) : Bool :=
  o.shapes.isNone && decide (o.src.toNat < o.dst.toNat) && decide (o.dst.toNat < o.src.toNat + o.count)

/-- Source and destination of byte i of an operation, in the order of the copy. -/
def EngineOp.addrs (o : EngineOp) (i : Nat) : Word × Word :=
  match o.shapes with
  | none => let j := if o.down then o.count - 1 - i else i; (o.src + wd j, o.dst + wd j)
  | some (a, b) => (o.src + a.offset i, o.dst + b.offset i)

/-- Do the addresses of byte i leave the 64-bit numbers (R257)? -/
def EngineOp.leaves (o : EngineOp) (i : Nat) : Bool × Bool :=
  match o.shapes with
  | none =>
    let j := if o.down then o.count - 1 - i else i
    (decide (18446744073709551616 ≤ o.src.toNat + j), decide (18446744073709551616 ≤ o.dst.toNat + j))
  | some _ => (false, false)

/-- A source byte of an operation: an ACOPY reads it as it was before the operation, whatever it has written since (R257); an
ACOPYT that reads a byte it has written may receive either value (R258). -/
def EngineOp.source (o : EngineOp) (s : State) (c : Chunk) (k : Nat) : State × Byte :=
  let was := ((o.was.find? fun e => e.1 == k).map Prod.snd).getD (memByte s k)
  let now := chunkByte s c k
  if o.shapes.isNone ∨ was = now then (s, was)
  else (useFree s, if Config.shapedOverlap s.free then was else now)

/-- What bounds an engine chunk beside 64 KiB of destination: the lines that the entry pool gives (R275), and the slices of a reservation
(R287). -/
structure Room where
  /-- Lines. -/
  lines : Nat
  /-- The slices that it may reach; none where it holds no reservation. -/
  slices : Option (List Nat)

/-- Has a chunk come to the end of the entries that the pool gives it, or of its signatures (R275, R278)? -/
def Room.full (r : Room) (c : Chunk) : Bool := decide (r.lines ≤ c.lines.length) || overOccupied c

/-- May a chunk go on with a byte at a place of a source and of a destination (R275, R278, R287)? It takes the entries that the pool gives: 64
at least, which are 4 KiB of a destination whose bytes lie together (log entry 123). -/
def Room.takes (r : Room) (c : Chunk) (k d : Nat) : Bool :=
  (c.lines.contains (d / 64) || decide (c.lines.length < r.lines)) && !overOccupied c &&
  (match r.slices with
   | none => true
   | some l => l.contains (sliceOf (k / 64)) && l.contains (sliceOf (d / 64)))

/-- Copy up to n bytes from byte i on into an engine chunk: the next byte, or the fault as a
status word. An address that leaves the 64-bit numbers faults as one beyond the 52-bit space does (R257). -/
def copyBytes (w : Who) (o : EngineOp) (room : Room) (s : State) (c : Chunk) (i : Nat) :
    Nat → State × Chunk × Nat × Option Word
  | 0 => (s, c, i, none)
  | n + 1 =>
    let p := o.addrs i
    match if (o.leaves i).1 then (s, .error 3) else agentRead s w p.1 with
    | (s1, .error f) => (s1, c, i, some (statusWord (statusCause f) 0 p.1))
    | (s1, .ok k) => match if (o.leaves i).2 then (s1, .error 3) else agentWrite s1 w p.2 with
      | (s2, .error f) => (s2, c, i, some (statusWord (statusCause f) 1 p.2))
      | (s2, .ok d) =>
        if room.takes c k d then
          let b := o.source s2 c k
          let c := (c.use s1 w p.1.toNat k).use s2 w p.2.toNat d
          copyBytes w o room b.1 (chunkPut { c with readG := addItem c.readG (k / 4096) } d b.2) (i + 1) n
        else (s2, c, i, none)

/-- Change the operation of the thread that moves on flag k. -/
def modEngine (s : State) (k : Nat) (f : EngineOp → EngineOp) : State :=
  { s with engines := s.engines.map fun e => if e.tid = s.cur ∧ e.k = k then f e else e }

/-- An engine operation reserves before it executes again (R287). -/
def reserveEngine (s : State) (k : Nat) (e : Effort) : State :=
  if e.wanted.isEmpty || e.reserving || !slicesFree s e.wanted then s
  else takeSlices (modEngine s k fun o => { o with effort := { o.effort with reserving := true } }) (engineAgent s.cur k) e.wanted

/-- The first byte under a reservation of an engine operation lies outside its slices: the operation gives them back, and reserves with them those
of that byte before it goes on (R287, R288). -/
def widenHold (s : State) (o : EngineOp) (room : Room) : State :=
  let x := copyBytes (who s) o { room with slices := none } s (Chunk.empty 0 o.chunks) o.pos 1
  modEngine { s with held := s.held.filter fun h => h.2 != engineAgent s.cur o.k } o.k fun o =>
    { o with effort := o.effort.widened (footprint x.2.1) }

/-- The engine chunk of an operation executes (R253): at most 64 KiB of destination from its position, in replay the recorded extent
(R423), under the tables, level and VFID that its thread has when it executes (R253 names no others; log entry 92). A fault rolls the chunk
back and is the operation's result, or ends a replay in which the chunk has committed (R424); a chunk that the entry pool or a signature cut
short of 64 KiB counts as a capacity closing, and one that the pool cannot give 64 entries waits (R275). -/
def executeEngine (s : State) (o : EngineOp) : State :=
  let s0 := reserveEngine s o.k o.effort
  let mine := (s0.held.filter fun h => h.2 == engineAgent s0.cur o.k).map Prod.fst
  if !o.effort.wanted.isEmpty && mine.isEmpty then { s0 with outOfTurn := true } else
  let extent := recordFor s0 2 (engineAgent s0.cur o.k) o.chunks
  let n := Nat.min ((extent.map fun r => (r.dw.getD 2 0).toNat).getD 65536) (o.size - o.pos)
  let lines := if extent.isSome then bufferSize (coreOf s0.cur) else entriesFor s0 (.engine s0.cur o.k)
  if lines < 64 then { s0 with outOfTurn := true } else
  let room : Room := { lines := lines, slices := if mine.isEmpty then none else some mine }
  match copyBytes (who s0) o room s0 (Chunk.empty 0 o.chunks) o.pos n with
  | (s1, _, _, some st) => (match extent with
    | some r => { s1 with outOfTurn := true,
                          unreached := if nextGrant s1 r.slice == some r then some (engineAgent s1.cur o.k, o.chunks, r.off) else none }
    | none => modEngine s1 o.k fun e => { e with result := some st })
  | (s1, c, j, none) =>
    if j = o.pos ∧ n ≠ 0 then widenHold s1 o room else
    modEngine (if j < o.pos + n ∧ room.full c = true then bumpStat s1 4 1 else s1) o.k fun e =>
      { e with chunk := some { c with count := j - o.pos } }

/-- The executed chunk of an operation commits and its position moves on (R253, R281); after the last one the result is 0 (R259). -/
def commitEngine (s : State) (o : EngineOp) (c : Chunk) : State :=
  let old := (c.writes.map fun e => (e.1, memByte s e.1)).filter fun e => !(o.was.any fun x => x.1 == e.1)
  let pos := o.pos + c.count
  let s1 := modEngine (bumpStat s 0 1) o.k fun e =>
    { e with chunk := none, pos := pos, chunks := e.chunks + 1, was := e.was ++ old, effort := e.effort.committed,
             result := if o.size ≤ pos then some 0 else none }
  commitItems s1 (engineAgent s.cur o.k) c [wd c.count]

/-- One step of the operation of the thread that moves on flag k (R253, R257 to R259): its chunk executes, or commits. -/
def stepEngine (s : State) (k : Nat) : State :=
  match s.engines.find? fun e => e.tid == s.cur && e.k == k && e.go && e.result.isNone with
  | none => s
  | some o => match o.chunk with
    | some c => commitEngine s o c
    | none => if o.size ≤ o.pos then modEngine s k fun e => { e with result := some 0 } else executeEngine s o

/-- What follows a step of an operation: its next step, or its completion (R259). -/
def followEngine (s : State) (k : Nat) : State :=
  match s.engines.find? fun e => e.tid == s.cur && e.k == k && e.go with
  | none => s
  | some o =>
    { s with agenda := s.agenda ++ [.event (if o.result.isSome then .engineCompletion s.cur k else .engineOperation s.cur k)] }

/-- One step of an operation, and the event that follows it. -/
def runEngine (s : State) (k : Nat) : State := followEngine (stepEngine s k) k

/-- Steps of an operation until its result stands. -/
def engineFuel (k : Nat) : Nat → State → State
  | 0, s => s
  | n + 1, s => if s.engines.any fun e => e.tid == s.cur && e.k == k && e.result.isNone then engineFuel k n (stepEngine s k) else s

/-- The operation of the thread that moves on flag k runs to its result: each chunk covers 4 KiB at least (R275) or, where a
signature closes it, some bytes. -/
def finishEngine (s : State) (k : Nat) : State :=
  match s.engines.find? fun e => e.tid == s.cur && e.k == k with
  | none => s
  | some o => engineFuel k (2 * (o.size - o.pos) + 2) s

/-- Set DONE k, FAULT k and the status word in one copy of the checkpointed state (R254). -/
def deliverFlag (k : Nat) (st : Word) (a : Arch) : Arch :=
  { a with done := a.done ||| BitVec.ofNat 16 (2 ^ k),
           efault := if fld st 60 4 = 0 then a.efault else a.efault ||| BitVec.ofNat 16 (2 ^ k),
           evs := a.evs.setIfInBounds k st }

/-- The completion of the operation on flag k of the thread that moves (R254, R259): the flag is set in the state and in
its checkpoints, and a NAP that the flag ends ends (R96). -/
def completeEngine (s : State) (k : Nat) : State :=
  match s.engines.find? fun e => e.tid == s.cur && e.k == k && e.result.isSome with
  | none => s
  | some o =>
    let st := o.result.getD 0
    let s1 := { s with engines := s.engines.filter fun e => !(e.tid == s.cur && e.k == k) }
    modT s1 fun t =>
      { t with a := deliverFlag k st t.a, ckpt := deliverFlag k st t.ckpt, ckptOpen := deliverFlag k st t.ckptOpen,
               run := if t.run = .napping ∧ bitAt t.napDone.toNat k = false then .running else t.run,
               stall := match t.stall with
                 | .evwait j => if j = k then .none else t.stall
                 | .engine _ => .none
                 | st => st }

/-- The flags on which the thread that moves has an operation outstanding. -/
def outstanding (s : State) : List Nat := (s.engines.filter fun e => e.tid == s.cur).map EngineOp.k

/-- Wait for every outstanding operation of the thread that moves and deliver its result (R265). -/
def drainEngines (s : State) : State :=
  (outstanding s).foldl (fun s k =>
    completeEngine (finishEngine (modEngine s k fun e => { e with go := true }) k) k) s

/-- Operations outstanding on the core of the thread that moves (R253). -/
def coreEngines (s : State) : Nat := (s.engines.filter fun e => coreOf e.tid == coreOf s.cur).length

/-- The most that its core may have outstanding (R253). -/
def engineLimit (s : State) : Nat := if isSteward s.cur then 16 else 32

end Sys2Proof.Machine
end

