-- ==== Sys2Proof/Machine/Tile.lean ====
section
/-! DEFINITION. Machine/Tile.lean: the arithmetic of the matrix array (R225 to R243): row sums, promotion, tile images and
the steps in the array. -/

namespace Sys2Proof.Machine

open Sys2Proof

/-- The exact sum of a row's products so far (R233, R234). -/
structure RowAcc where
  /-- A term is NaN. -/
  nan : Bool
  /-- A term is +∞. -/
  pos : Bool
  /-- A term is −∞. -/
  neg : Bool
  /-- A term is invalid or reads a signalling NaN (NV). -/
  nv : Bool
  /-- The sum of the finite terms, in units of 2^−280. -/
  sum : Int
  deriving DecidableEq, Repr

/-- A finite value as an integer in units of 2^−140: exact for every FP8 and BF16 value. -/
def unit140 (d : Dy) : Int :=
  let m : Int := (d.mant * 2 ^ (d.exp + 140).toNat / 2 ^ (-140 - d.exp).toNat : Nat)
  if d.neg then -m else m

/-- Add one term to a row sum (R234). -/
def addTerm (r : RowAcc) (a w : Num) : RowAcc :=
  match a, w with
  | .fin x, .fin y => { r with sum := r.sum + unit140 x * unit140 y }
  | .nan s, w => { r with nan := true, nv := r.nv || s || (w.nv != 0) }
  | a, .nan s => { r with nan := true, nv := r.nv || s || (a.nv != 0) }
  | .inf n, .inf m => if n = m then { r with pos := true } else { r with neg := true }
  | .inf n, .fin y => if y.mant = 0 then { r with nan := true, nv := true }
    else if n = y.neg then { r with pos := true } else { r with neg := true }
  | .fin x, .inf n => if x.mant = 0 then { r with nan := true, nv := true }
    else if n = x.neg then { r with pos := true } else { r with neg := true }

/-- The sum over the rows of a column of W (R233); activations past the list are zero. -/
def sumTerms (r : RowAcc) : List Num → List Num → RowAcc
  | _, [] => r
  | [], w :: ws => sumTerms (addTerm r (.fin { neg := false, mant := 0, exp := 0 }) w) [] ws
  | a :: as, w :: ws => sumTerms (addTerm r a w) as ws

/-- The value p of a row sum (R234): an exact zero is +0. -/
def RowAcc.value (r : RowAcc) : Num :=
  if r.nan || (r.pos && r.neg) then .nan false
  else if r.pos then .inf false
  else if r.neg then .inf true
  else .fin { neg := decide (r.sum < 0), mant := r.sum.natAbs, exp := -280 }

/-- Promote (R234). -/
def promote (acc : BitVec 32) (r : RowAcc) (sa sw : BitVec 32) (accumulate : Bool) : BitVec 32 × BitVec 6 :=
  let f0 : BitVec 6 := if r.nv || (r.pos && r.neg) then fNV else 0
  let a := readF32 sa
  let w := readF32 sw
  let t1 := numMulExact r.value a
  let t2 := numMulExact t1.1 w
  let f := f0 ||| t1.2 ||| t2.2
  if accumulate then
    let x := numAdd 8 0 false false (readF32 acc) t2.1
    (x.1, x.2 ||| f)
  else match t2.1 with
    | .nan _ => (nan32, f)
    | .inf n => (inf32 n, f)
    | .fin d => let x := deliver 8 0 false false d; (x.1, x.2 ||| f)

/-- Column n of a tile's rows, as numbers of the operating type. -/
def columnNums (ty : Nat) (w : List (List (BitVec 16))) (n : Nat) : List Num :=
  w.map fun r => readF32 (fromCode ty (r.getD n 0).toNat)

/-- Column n of a tile's rows, as integers. -/
def columnInts (ty : Nat) (w : List (List (BitVec 16))) (n : Nat) : List Int :=
  w.map fun r => let c : Nat := (r.getD n 0).toNat % 256; if ty = 0 ∧ 128 ≤ c then (c : Int) - 256 else (c : Int)

/-- The integer sum of products (R233); activations past the list are zero. -/
def intDot : List Int → List Int → Int
  | a :: as, w :: ws => a * w + intDot as ws
  | _, _ => 0

/-- The value of an S8 or N8 lane. -/
def laneInt (ty : Nat) (l : Lane) : Int := if tySigned ty then (l.setWidth 32).toInt else (l.setWidth 32).toNat

/-- Rows of an operating type: 128, or 32 for BF16 (R228). -/
def tileDepth (ty : Nat) : Nat := if ty = 9 then 32 else 128

/-- A row step over a row (R233): the row's new contents and the flags. -/
def rowStep (row : List (BitVec 32)) (m : MatStep) (sl : Slot) : List (BitVec 32) × BitVec 6 :=
  if m.ty < 8 then
    let a := m.act.map (laneInt m.ty)
    ((List.range 128).map fun n =>
      let p := intDot a (columnInts sl.ty sl.w n)
      BitVec.ofInt 32 (if m.acc then (row.getD n 0).toInt + p else p), 0)
  else
    let a := m.act.map fun l => readF32 (l.setWidth 32)
    let r := (List.range 128).map fun n =>
      promote (row.getD n 0) (sumTerms { nan := false, pos := false, neg := false, nv := false, sum := 0 } a
        (columnNums sl.ty sl.w n)) m.scale sl.scale m.acc
    (r.map Prod.fst, r.foldl (fun f x => f ||| x.2) 0)

/-- A code of an operating type in units of 2^−140; NaN and infinite codes are zero (R229, R242). -/
def codeUnit (ty : Nat) (c : BitVec 16) : Int :=
  if ty < 8 then (let v : Nat := c.toNat % 256; if ty = 0 ∧ 128 ≤ v then (v : Int) - 256 else (v : Int)) * 2 ^ 140
  else match readF32 (fromCode ty c.toNat) with
    | .fin d => unit140 d
    | _ => 0

/-- The checksum column (R229): exact sums of the rows; NaN and infinite codes count as zero. -/
def checkColumn (ty : Nat) (w : List (List (BitVec 16))) : List Dy :=
  w.map fun r =>
    let s : Int := (r.map (codeUnit ty)).foldl (· + ·) 0
    { neg := decide (s < 0), mant := s.natAbs, exp := -140 }

/-- Body bytes of a tile form (R228): 0 raw, 1 structured, 2 E2M1. -/
def bodySize (form ty : Nat) : Nat := if form = 1 then 10240 else if form = 2 ∨ ty = 9 then 8192 else 16384

/-- Is a form allowed with an operating type (R228)? -/
def formOk (form ty : Nat) : Bool :=
  form == 0 || (form == 1 && ty != 9) || (form == 2 && ty == 11)

/-- W[k][n] of a body (R228): b gives the byte at an offset from the image base. -/
def bodyCode (form ty k n : Nat) (b : Nat → Byte) : BitVec 16 :=
  if form = 0 then
    (if ty = 9 then BitVec.ofNat 16 (leNat b (64 + 2 * (128 * k + n)) 2) else (b (64 + 128 * k + n)).setWidth 16)
  else if form = 1 then
    let j := n / 4
    let ix := (b (8256 + 16 * k + j / 2)).toNat / (if j % 2 = 0 then 1 else 16)
    if ix / 4 % 4 = n % 4 then (b (64 + 64 * k + 2 * j + 1)).setWidth 16
    else if ix % 4 = n % 4 then (b (64 + 64 * k + 2 * j)).setWidth 16 else 0
  else
    let e := 128 * k + n
    BitVec.ofNat 16 ((toCode 11 (fromCode 13 ((b (64 + e / 2)).toNat / (if e % 2 = 0 then 1 else 16) % 16))).toNat)

/-- The tile of a body by rows. -/
def bodyTile (form ty : Nat) (b : Nat → Byte) : List (List (BitVec 16)) :=
  (List.range (tileDepth ty)).map fun k => (List.range 128).map fun n => bodyCode form ty k n b

/-- The streamed body of an MLDW is in its slot (R231). -/
def finishLoad (sl : Slot) : Slot :=
  match sl.loading with
  | none => sl
  | some (w, p) => { sl with w := w, check := checkColumn sl.ty w, poison := p, loading := none }

/-- Record a row's prior contents once in the chunk that the step belongs to (R226). -/
def logRow (t : Thread) (num g : Nat) (old : List (BitVec 32)) : Thread :=
  let add (c : Chunk) : Chunk := if c.undo.any fun u => u.1 == g then { c with given := c.given.filter (· != g) } else { c with undo := (g, old) :: c.undo }
  if num = t.chunk.num then { t with chunk := add t.chunk }
  else match t.closed with
    | some c => if num = c.num then { t with closed := some (add c) } else t
    | none => t

/-- An activation lane in the same units (R242). -/
def laneUnit (ty : Nat) (l : Lane) : Int :=
  if ty < 8 then laneInt ty l * 2 ^ 140
  else match readF32 (l.setWidth 32) with
    | .fin d => unit140 d
    | _ => 0

/-- The self-check of a step (R242): E, formed in the checksum column, equals the exact sum of the row sums. -/
def stepChecks (m : MatStep) (sl : Slot) : Bool :=
  let a := m.act.map (laneUnit m.ty)
  let e := intDot a (sl.check.map unit140)
  let p := ((List.range 128).map fun n => intDot a (sl.w.map fun r => codeUnit sl.ty (r.getD n 0))).foldl (· + ·) 0
  e == p

/-- The checksum of a step does not match (R242): its row is not written, the later results of the thread are discarded, and the
thread traps at its next boundary. -/
def failStep (s : State) (m : MatStep) : State :=
  modT { s with c := { s.c with mat := s.c.mat.filter fun x => x.tid != m.tid } } fun t =>
    { t with deferred := some { cause := 15, addr := wd m.pc, blame := 0, stream := 0 } }

/-- Flags raised by work of chunk num enter FSTAT, and the checkpoints taken after that chunk began (R79, R234); that of an open
pass chunk too, since hardware never clears a flag. -/
def raiseFrom (t : Thread) (num : Nat) (f : BitVec 6) : Thread :=
  let up (a : Arch) : Arch := { a with fstat := a.fstat ||| f }
  let older : Bool := match t.closed with
    | some c => decide (num < c.num)
    | none => decide (num < t.chunk.num)
  { t with a := up t.a, ckptOpen := if num < t.chunk.num then up t.ckptOpen else t.ckptOpen,
           ckpt := if older then up t.ckpt else t.ckpt, passCkpt := t.passCkpt.map fun p => (p.1, p.2 ||| f) }

/-- A step of the thread that moves finishes in the array, its check passed (R233, R242). -/
def writeStep (s : State) (m : MatStep) : State :=
  let sl := finishLoad (slotOf s.c m.slot)
  let old := tileRow s.c m.row
  let r := rowStep old m sl
  let s1 := { s with c := putTileRow (putSlot { s.c with mat := s.c.mat.erase m } m.slot sl) m.row r.1 }
  modT s1 fun t => raiseFrom (logRow t m.num m.row old) m.num r.2

/-- A step of the thread that moves, still in the array, leaves it (R233, R242): its row is written where its check passes. -/
def finishStep (s : State) (m : MatStep) : State :=
  if !s.c.mat.contains m then s
  else if stepChecks m (finishLoad (slotOf s.c m.slot)) then writeStep s m else failStep s m

/-- Every step of the thread that moves finishes, in issue order (R83, R237, R244). -/
def drainMatrix (s : State) : State := (s.c.mat.filter fun m => m.tid == s.cur).foldl finishStep s

/-- Every step in the core's array finishes, in issue order, those of both threads. -/
def drainCore (s : State) : State := s.c.mat.foldl (fun s m => onThread s m.tid fun s => finishStep s m) s

/-- Does the thread that moves hold a global row (R100)? -/
def holdsRow (s : State) (g : Nat) : Bool := s.c.holds (s.cur % 2) g

/-- Does the thread hold rows g to g + n − 1? The rows of a thread are one range. -/
def holdsRows (s : State) (g n : Nat) : Bool := holdsRow s g && holdsRow s (g + n - 1)

end Sys2Proof.Machine
end

