-- ==== Sys2Proof/Machine/Context.lean ====
section
/-! DEFINITION. Machine/Context.lean: the lane allocation table (R100, R101), the change of tenant (R361), context images
(R392 to R394, R398, R399), the start of a context (R90, R94), HALT (R400) and dumps (R401 to R404). -/

namespace Sys2Proof.Machine

open Sys2Proof

/-- CHKLIM as read (R292). -/
def chklimWord (a : Arch) : Word := wd (a.chkEff * 65536 + a.chkLim)
/-- EVF (R254). -/
def evfWord (a : Arch) : Word := wd (a.efault.toNat * 65536 + a.done.toNat)
/-- UICTL (R266). -/
def uictlWord (a : Arch) : Word := wd (b2n a.uiactive * 65536 + a.uien.toNat)
/-- VL (R191). -/
def vlWord (a : Arch) : Word := wd (a.vlGrant * 4294967296 + a.vlLen)
/-- VRS01 (R219). -/
def vrs01Word (a : Arch) : Word := wd (a.vrs[1] % 2147483648 * 4294967296 + a.vrs[0] % 2147483648)
/-- VRS23 (R219). -/
def vrs23Word (a : Arch) : Word := wd (a.vrs[3] % 2147483648 * 4294967296 + a.vrs[2] % 2147483648)
/-- LAT as the thread that moves reads it (R100). -/
def latWord (s : State) : Word :=
  wd (s.cur % 2 * 2 ^ 63 + s.c.tr1 * 2 ^ 32 + s.c.tr0 * 65536 + s.c.lc[3].toNat * 64 + s.c.lc[2].toNat * 16 +
    s.c.lc[1].toNat * 4 + s.c.lc[0].toNat)

/-- The cluster share that the thread that moves takes (R101): a cluster that the sibling's running pass holds changes hands at that
pass's next group-row boundary. -/
def shareClusters (s : State) : State :=
  if isSteward s.cur then s else
    let o := threadAt s (siblingOf s.cur)
    let me : BitVec 2 := if s.cur % 2 = 0 then 1 else 2
    let all := o.run != .running && o.pass.isNone
    let want : Vector (BitVec 2) 4 := if all then Vector.replicate 4 me else
      #v[1, 1, 2, 2].map fun h => if h = 3 - me ∧ o.run = .halted then 0 else h
    let now := s.c.lc.mapIdx fun i h => if o.pass.isSome && h == 3 - me then h else want.toList.getD i 0
    { s with c := { s.c with lc := now, lcNext := if now = want then none else some want } }

/-- The clusters whose hand-over waits for the sibling's pass change hands now (R101). -/
def passClusters (c : Core) : Core :=
  match c.lcNext with
  | none => c
  | some w => { c with lc := w, lcNext := none }

/-- A pass has waited until now, for clusters (R102) or for slices (R287): its logical clusters go on from here. One that has worked no group
has its start-up still to come. -/
def Pass.waited (p : Pass) (c : Core) : Pass :=
  let gone := (c.cyc - p.began).toNat
  { p with lost := p.lost.mapIdx fun i n => if p.tally.work.isEmpty then gone else Nat.max n (gone - 48 - p.tally.cycles i) }

/-- A thread that has been given its first clusters goes on with its pass (R102). -/
def endWait (s : State) (tid : Nat) (before : Core) : State :=
  let me : BitVec 2 := if tid % 2 = 0 then 1 else 2
  let has (c : Core) : Bool := c.lc.toList.contains me
  if has before || !has s.c then s
  else putThread s tid (let t := threadAt s tid; { t with pass := t.pass.map fun p => p.waited s.c })

/-- The pass of the thread that moves is at a group-row boundary, or over: clusters of its own that the sibling waits for change hands
(R101). -/
def handOver (s : State) : State :=
  let me : BitVec 2 := if s.cur % 2 = 0 then 1 else 2
  match s.c.lcNext with
  | none => s
  | some w =>
    if (List.range 4).any fun i => s.c.lc.toList.getD i 0 == me && w.toList.getD i 0 != me
    then endWait { s with c := passClusters s.c } (siblingOf s.cur) s.c else s

/-- The tile-row holding that renegotiation gives the thread that moves (R101). -/
def newHolding (s : State) : Nat :=
  let o := threadAt s (siblingOf s.cur)
  Nat.min (if o.run = .halted then 512 else 256) (512 - s.c.rows (1 - s.cur % 2))

/-- Renegotiate the LAT share (R101): clusters and tile rows. A steward has neither (R315). The share before it and the contents of
rows that it zeroes are kept with the chunk (R277). The thread's matrix steps have written their rows before it (R225). -/
def renegotiate (s0 : State) : State :=
  if isSteward s0.cur then s0 else
    let s := drainMatrix s0
    let s1 := shareClusters s
    let ct := s.cur % 2
    let n := newHolding s
    let c2 := setHolding s1.c ct n
    let gone := s.c.tiles.filter fun r => tileRow c2 r.1 != r.2 && !(s.t.chunk.undo.any fun u => u.1 == r.1)
    let sh := match s.t.chunk.share with
      | none => (s.c.lc, s1.c.lc, s.c.rows ct, s.c.lcNext)
      | some x => (x.1, s1.c.lc, x.2.2)
    modT { s1 with c := c2 } fun t => { t with chunk := { t.chunk with
      undo := gone ++ t.chunk.undo, given := gone.map Prod.fst ++ t.chunk.given, share := some sh,
      mended := (s.c.bad.filter fun k => !c2.bad.contains k) ++ t.chunk.mended } }

/-- Does the thread that moves hold a physical cluster? -/
def holdsCluster (s : State) : Bool :=
  s.c.lc.toList.any fun h => h == (if s.cur % 2 = 0 then 1 else 2)

/-- The vector side of a thread's state zeroed (R361). -/
def zeroVector (t : Thread) : Thread :=
  let r := Arch.reset 0
  { t with a := { t.a with v := r.v, m := r.m, q := r.q }, lanes := Vector.replicate 20 0 }

/-- Clear a debug block except HEAD (R409): FILTER, too, which is 0x7F after a module reset, becomes zero. -/
def zeroDebug (s : State) (tid : Nat) : State :=
  devPut { s with dev := s.dev.filter fun e => !(decide (paDebug tid 0 ≤ e.1) && decide (e.1 < paDebug tid 0x100)) } (paDebug tid 0x48) 0

/-- The core of the thread that moves passes to a tenant (R361, R407, R409): when its last context had another VFID, TCM,
vector and mask registers, the matrix state, the ring and the debug blocks become zero. -/
def passTenant (s : State) (vf : Nat) : State :=
  match s.c.tenant with
  | none => { s with c := { s.c with tenant := some vf } }
  | some o =>
    if o = vf then s else
      let c := { s.c with tenant := some vf, tiles := [], bad := [], slot0 := Slot.reset, slot1 := Slot.reset, mat := [], ring := [],
                          icache := [] }
      let s1 := zeroDebug (modT { s with c := c } zeroVector) s.cur
      if isSteward s.cur then s1 else
        let o := siblingOf s.cur
        zeroDebug (scrub (putThread s1 o (zeroVector (threadAt s1 o))) (tcmKey (coreOf s.cur) 0) 262144) o

/-- Give a list of bytes a length. -/
def fitLen (n : Nat) (l : List Byte) : List Byte := (l ++ List.replicate (n - l.length) 0).take n

/-- Lay segments out from offset 0, zero between them; offsets rise. -/
def layOut : List (Nat × List Byte) → List Byte → List Byte
  | [], acc => acc
  | (o, b) :: t, acc => layOut t (acc ++ List.replicate (o - acc.length) 0 ++ b)

/-- Eight bytes for each word. -/
def wordBytes (l : List Word) : List Byte := (l.map fun (d : Word) => leBytes 8 d.toNat).flatten

/-- The opaque bytes of a saved state by section: 0 VREGS and MREGS, 1 WEAVE, 2 and 3 the weight slots 0 and 1 (R392, R393). -/
def opaqueSection (id sec : Nat) : List Byte :=
  (List.range (if sec = 0 then 312 else if sec = 1 then 8192 else 20480)).map (Config.opaqueByte id sec)

/-- The check code of a saved state that owns weight slots (R392): over the opaque bytes that a save writes (R393). -/
def opaqueCheck (id : Nat) (steward : Bool) (owned : List Nat) : Nat :=
  (Config.checkCode (if steward then opaqueSection id 0
    else opaqueSection id 0 ++ opaqueSection id 1 ++ (owned.map fun i => opaqueSection id (2 + i)).flatten)).toNat

/-- Weight slots that the thread owns, their loads finished (R244). -/
def ownedSlots (s : State) : List (Nat × Slot) :=
  ([0, 1].filter fun i => (slotOf s.c i).owner == some s.cur).map fun i => (i, finishLoad (slotOf s.c i))

/-- The CSRS field of the header, in its order (R392). -/
def csrsBytes (s : State) : List Byte :=
  let a := s.t.a
  let st := s.t.chkstat
  wordBytes [a.fctl.setWidth 64, a.fstat.setWidth 64, a.fxrm.setWidth 64, a.cmpthr.setWidth 64, chklimWord a, st[0], st[1],
    st[2], st[3], st[4], evfWord a, a.uivec, uictlWord a, a.uipc, vlWord a, vrs01Word a, vrs23Word a, a.capBase, a.capSize,
    if isSteward s.cur then 0 else latWord s]

/-- The header of the image of the thread that moves, by parts (R392): the S block and KEYID are written only at H. -/
def headerSegs (s : State) (id pc : Nat) (lvl : Level) : List (Nat × List Byte) :=
  let t := s.t
  let a := t.a
  let atH := t.lvl = .h
  let self := if isSteward s.cur then 2 else s.cur % 2
  let kept := t.parkKept.find? fun p => p.1 == pc && p.2.1 == lvl
  let flags := b2n a.token + 2 * b2n kept.isSome + 4 * b2n (decide atH)
  let bases := (a.bases.map fun (b : Reg × Word) => wordBytes [wd b.1.toNat, b.2]).flatten
  let grants := (t.grants.map fun (g : Grant) =>
    wordBytes [wd g.row0, wd g.col0, wd g.rows, wd g.cols, wd g.tid, 1]).flatten
  let groups := (t.groups.map fun (g : Nat) => leBytes 8 (g + 2 ^ 63)).flatten
  let sblock := wordBytes [t.tvec, t.tstatus.setWidth 64, t.trappc, t.trapcause.setWidth 64, t.trapaddr,
    t.trapblame, t.trapstream, t.ctxbase, t.dumpbase, t.ptbase, t.asid.setWidth 64] ++ leBytes 8 t.keyid
  [(0, fitLen 0x4E8 (layOut [(0, leBytes 8 pc), (8, leBytes 4 (lvl.code + 256 * t.vfid + 65536 * self + 16777216 * flags)),
    (0xC, leBytes 4 (opaqueCheck id (isSteward s.cur) ((ownedSlots s).map Prod.fst))), (0x10, wordBytes [(kept.map fun p => p.2.2).getD 0]),
    (0x18, wordBytes (0 :: (a.x.toList.drop 1))), (0x118, csrsBytes s), (0x1B8, wordBytes a.evs.toList),
    (0x238, (a.q.toList.map fun (q : BitVec 32) => leBytes 4 q.toNat).flatten),
    (0x258, wordBytes [a.sc, wd a.ste]), (0x268, fitLen 64 bases), (0x2A8, fitLen 192 grants), (0x368, fitLen 64 groups),
    (0x3A8, opaqueSection id 0)] []))] ++
  (if atH then [(0x4E8, sblock)] else []) ++ [(0x548, fitLen 0xAB8 (wordBytes a.shadow.toList))]

/-- The lanes of a resident value as bytes (R393, R394). -/
def laneBytes (v : Val) : List Byte :=
  match v.ref with
  | .res l => (l.map fun (x : Lane) => leBytes (if tyWide v.ty then 8 else 4) x.toNat).flatten
  | _ => []

/-- Bits packed eight to a byte, least significant first (R64). -/
def packBits : List Lane → List Byte
  | [] => []
  | l => packFuel l.length l
where
  /-- Pack with fuel. -/
  packFuel : Nat → List Lane → List Byte
  | 0, _ => []
  | _, [] => []
  | n + 1, l => BitVec.ofNat 8 (bytes8 (l.take 8)) :: packFuel n (l.drop 8)
  /-- The number of up to eight bits. -/
  bytes8 : List Lane → Nat
  | [] => 0
  | b :: t => b.toNat % 2 + 2 * bytes8 t

/-- A resident mask as bytes (R64, R393). -/
def maskBytes (v : Val) : List Byte :=
  match v.ref with
  | .res l => packBits l
  | _ => []

/-- The global rows that the thread that moves holds. -/
def heldRows (s : State) : List Nat :=
  if isSteward s.cur then []
  else if s.cur % 2 = 0 then List.range s.c.tr0 else (List.range s.c.tr1).map fun i => 512 - s.c.tr1 + i

/-- The parts of the image of the thread that moves, by offset (R392 to R394): all of them, or only what is dirty. -/
def imageSegs (s : State) (id pc : Nat) (lvl : Level) (all : Bool) : List (Nat × List Byte) :=
  headerSegs s id pc lvl ++
  (if isSteward s.cur then [] else
    (0x1000, opaqueSection id 1) ::
    (((List.range 32).filter fun i => all || (s.t.a.v.toList.map VReg.dirty).getD i false).map fun i =>
      (0x3000 + 0x800 * i, ((s.t.a.v.toList.map fun r => laneBytes r.val)).getD i [])) ++
    (((List.range 8).filter fun i => i != 0 && (all || (s.t.a.m.toList.map VReg.dirty).getD i false)).map fun i =>
      (0x13000 + 64 * i, ((s.t.a.m.toList.map fun r => maskBytes r.val)).getD i [])) ++
    ((heldRows s).map fun g =>
      (0x14000 + 512 * g, ((tileRow s.c g).map fun (x : BitVec 32) => leBytes 4 x.toNat).flatten)) ++
    ((ownedSlots s).map fun p => (0x54000 + 0x5000 * p.1, opaqueSection id (2 + p.1))))

/-- Number of the next saved state. -/
def nextSave (s : State) : Nat := s.saves.length + 1

/-- Keep what the opaque sections of an image stand for. -/
def keepSave (s : State) : State :=
  { s with saves := { a := s.t.a, ctx := s.t.ctx, slots := ownedSlots s } :: s.saves }

/-- The saved state that opaque bytes stand for, and its number: that of the save that wrote such bytes, the latest first; the
empty state and 0 where no save did (a fresh image, R91; log entry 15). -/
def findSave (l : List Image) (f : Nat → Bool) : Nat × Image :=
  match l with
  | [] => (0, { a := Arch.reset 0, ctx := 0, slots := [] })
  | i :: t => if f (t.length + 1) then (t.length + 1, i) else findSave t f

/-- Is a frame one that context images and dumps may be written to (R355, R403)? -/
def keyedFrame (s : State) (k : Nat) (owner : Bool) : Bool :=
  match fotIndex k with
  | none => false
  | some i =>
    let e := fotEntry s (fld s.t.fotbase 16 34 * 65536) i
    e % 8192 == s.t.keyid && (!owner || e / 65536 % 128 == s.t.vfid)

/-- Store bytes from an address upward as scalar stores, line by line, into keyed frames (R355, R398). -/
def storeRun (s : State) (va : Word) (b : List Byte) : Nat → State × Except Flt Unit
  | 0 => (s, .ok ())
  | n + 1 =>
    if b.isEmpty then (s, .ok ()) else
      let k := Nat.min b.length (64 - va.toNat % 64)
      match lookup s (who s) .write va with
      | .error c => (s, .error (flt c va))
      | .ok (p, _) =>
        if !keyedFrame s p false then (s, .error (flt 4 va))
        else
          let put (s : State) : State × Except Flt Unit := storeNat s va k (bytesNat (b.take k))
          let fits : Bool := match put s with
            | (s1, .ok _) => !entriesFull s1
            | (_, .error _) => true
          match if fits then put s else put (commitOpen (bumpStat (countOne s) 4 1)) with
          | (s1, .error f) => (s1, .error f)
          | (s1, .ok _) => storeRun s1 (va + wd k) (b.drop k) n

/-- Store segments at offsets from a base, in chunks of their own that end where the entry pool is used up (R275, R398). -/
def storeSegs (s : State) (va : Word) : List (Nat × List Byte) → State × Except Flt Unit
  | [] => (s, .ok ())
  | (o, b) :: t => match storeRun s (va + wd o) b (b.length + 1) with
    | (s1, .error f) => (s1, .error f)
    | (s1, .ok _) => storeSegs s1 va t

/-- Clear every dirty bit (R394). -/
def cleanAll (a : Arch) : Arch :=
  { a with v := a.v.map fun r => { r with dirty := false }, m := a.m.map fun r => { r with dirty := false } }

/-- Set every dirty bit (R394). -/
def dirtyAll (a : Arch) : Arch :=
  { a with v := a.v.map fun r => { r with dirty := true }, m := a.m.map fun r => { r with dirty := true } }

/-- What has been read of an image. -/
structure ImageData where
  /-- The header. -/
  head : List Byte
  /-- WEAVE. -/
  weave : List Byte
  /-- VDATA and MDATA, from offset 0x3000. -/
  data : List Byte
  /-- TILES, from offset 0x14000. -/
  tiles : List Byte
  /-- SLOTS. -/
  slots : List Byte

/-- Read an image (R392, R393, R399): a steward's is the header alone. -/
def readImage (s : State) (va : Word) : State × Except Flt ImageData :=
  match loadLines s va 64 with
  | (s1, .error f) => (s1, .error f)
  | (s1, .ok h) =>
    if isSteward s.cur then (s1, .ok { head := h, weave := [], data := [], tiles := [], slots := [] }) else
      match loadLines s1 (va + 0x1000) 128 with
      | (s2, .error f) => (s2, .error f)
      | (s2, .ok w) => match loadLines s2 (va + 0x3000) 1088 with
        | (s3, .error f) => (s3, .error f)
        | (s3, .ok d) => match loadLines s3 (va + 0x14000) 4096 with
          | (s4, .error f) => (s4, .error f)
          | (s4, .ok tl) => match loadLines s4 (va + 0x54000) 640 with
            | (s5, .error f) => (s5, .error f)
            | (s5, .ok sl) => (s5, .ok { head := h, weave := w, data := d, tiles := tl, slots := sl })

/-- A doubleword of the header. -/
def hdw (h : List Byte) (o : Nat) : Word := wd (dfld h o 8)

/-- The opaque bytes that an image holds match those of save id. -/
def imageIs (d : ImageData) (steward : Bool) (id : Nat) : Bool :=
  (d.head.drop 0x3A8).take 312 == opaqueSection id 0 &&
  (steward || d.weave == opaqueSection id 1)

/-- Does CHECK match the opaque bytes, of the weight slots those that are saved (R392, R393, R399)? -/
def checkOk (d : ImageData) (steward : Bool) (owned : List Nat) : Bool :=
  let b := (d.head.drop 0x3A8).take 312
  let slots := (owned.map fun i => (d.slots.drop (0x5000 * i)).take 0x5000).flatten
  decide ((Config.checkCode (if steward then b else b ++ d.weave ++ slots)).toNat = dfld d.head 0xC 4)

/-- Lanes from bytes. -/
def bytesLanes (w : Nat) (b : List Byte) (n : Nat) : List Lane :=
  (List.range n).map fun i => wd (dfld b (w * i) w)

/-- A register's value with its resident lanes taken from the image (R393). -/
def loadReg (d : List Byte) (off : Nat) (mask : Bool) (r : VReg) : VReg :=
  match r.val.ref with
  | .res _ =>
    let l := if mask then (List.range r.val.len).map fun i => wd ((d.getD (off + i / 8) 0).toNat / 2 ^ (i % 8) % 2)
      else bytesLanes (if tyWide r.val.ty then 8 else 4) (d.drop off) r.val.len
    { val := { r.val with ref := .res l }, dirty := false }
  | _ => { r with dirty := false }

/-- Bits [51:lo] of a word, its other bits zero (R6). -/
def bitsOf52 (lo : Nat) (v : Word) : Word := wd (v.toNat % 2 ^ 52 / 2 ^ lo * 2 ^ lo)

/-- The checkpointed state that an image gives (R392, R393), with a program counter. -/
def imageArch (d : ImageData) (img : Image) (pc : Nat) : Arch :=
  let h := d.head
  let c (i : Nat) : Word := hdw h (0x118 + 8 * i)
  { x := Vector.ofFn fun i : Fin 32 => if i.val = 0 then 0 else hdw h (0x18 + 8 * i.val),
    pc := pc, fctl := (c 0).setWidth 4, fstat := (c 1).setWidth 6, fxrm := (c 2).setWidth 2, cmpthr := (c 3).setWidth 5,
    chkLim := fld (c 4) 0 13, chkEff := fld (c 4) 16 13, chkNext := none, done := (c 10).setWidth 16,
    efault := BitVec.ofNat 16 (fld (c 10) 16 16), evs := Vector.ofFn fun i : Fin 16 => hdw h (0x1B8 + 8 * i.val),
    uivec := bitsOf52 2 (c 11), uien := (c 12).setWidth 16, uiactive := decide (fld (c 12) 16 1 = 1),
    uipc := bitsOf52 2 (c 13),
    shadow := Vector.ofFn fun i : Fin 4 => hdw h (0x548 + 8 * i.val),
    vlLen := fld (c 14) 0 31, vlGrant := fld (c 14) 32 31,
    vrs := #v[fld (c 15) 0 31, fld (c 15) 32 31, fld (c 16) 0 31, fld (c 16) 32 31],
    capBase := bitsOf52 12 (c 17), capSize := bitsOf52 12 (c 18),
    v := Vector.ofFn fun i : Fin 32 => loadReg d.data (0x800 * i.val) false img.a.v[i.val],
    m := Vector.ofFn fun i : Fin 8 => loadReg d.data (0x10000 + 64 * i.val) true img.a.m[i.val],
    q := Vector.ofFn fun i : Fin 8 => BitVec.ofNat 32 (dfld h (0x238 + 4 * i.val) 4),
    nodes := img.a.nodes, leaves := img.a.leaves, nextId := img.a.nextId,
    token := bitAt (dfld h 0xB 1) 0, sc := hdw h 0x258, ste := (hdw h 0x260).toNat,
    bases := ((List.range 4).map fun i => (BitVec.ofNat 5 (dfld h (0x268 + 16 * i) 8), hdw h (0x270 + 16 * i))).filter
      fun b => b.1 != 0 || b.2 != 0,
    strip := img.a.strip, saved := img.a.saved, inner := img.a.inner, freeing := img.a.freeing }

/-- The grants that an image holds. -/
def imageGrants (h : List Byte) : List Grant :=
  ((List.range 4).filter fun i => dfld h (0x2A8 + 48 * i + 40) 8 == 1).map fun i =>
    let f (j : Nat) : Nat := dfld h (0x2A8 + 48 * i + 8 * j) 8
    { row0 := f 0, col0 := f 1, rows := f 2, cols := f 3, tid := f 4 }

/-- The memberships that an image holds. -/
def imageGroups (h : List Byte) : List Nat :=
  ((List.range 8).filter fun i => fld (hdw h (0x368 + 8 * i)) 63 1 == 1).map fun i => fld (hdw h (0x368 + 8 * i)) 0 12

/-- Change the member entries, and the logged arrivals, of groups that a test picks. That an arrival in the log takes the new THREADID of its member,
and keeps its COREID, is a DESIGN CHOICE (log entry 142). -/
def modMembers (s : State) (gs : List Nat) (f : Nat → Option Nat → Bool) (tid : Nat) (away : Option Nat) : State :=
  { s with groups := s.groups.map fun e => if gs.contains e.1 then
      (e.1, { e.2 with
        members := e.2.members.map fun m => if f m.tid m.away then { m with tid := tid, away := away } else m,
        log := e.2.log.map fun a => if f a.tid a.away then { a with tid := tid, away := away } else a }) else e }

/-- The context of the thread that moves makes room for another: its memberships stay its own (R333). -/
def setAside (s : State) : State :=
  modMembers s s.t.groups (fun tid away => tid == s.cur && away.isNone) s.cur (some s.t.ctx)

/-- A context that an image holds keeps its memberships under the THREADID it now has (R333): those that were set aside with it, and those of a thread
that still has it. -/
def renameMember (s : State) (img : Image) (new : Nat) (gs : List Nat) : State :=
  modMembers s gs (fun tid away => away == some img.ctx || (away.isNone && tid != new && (threadAt s tid).ctx == img.ctx)) new none

/-- Tile rows that an image holds for its own thread number (R392, R393). -/
def imageRows (h : List Byte) : Nat :=
  let lat := hdw h (0x118 + 8 * 19)
  if dfld h 0xA 1 = 0 then fld lat 16 10 else fld lat 32 10

/-- Load tile rows and slots into the core of the thread that moves (R244): of the rows those that the thread holds. A CTXLOAD holds
every saved row (R399); a start holds none (R101), and R90 does not say that it loads rows that it does not hold: log entry 86. Steps that the core has in its array use the slots before (R237). Where the sibling's
uncommitted chunk has loaded one of the slots the load waits for that chunk (R226, R244). What is loaded holds no error any more (R243). -/
def loadMatrix (s : State) (d : ImageData) (img : Image) : State :=
  let o := threadAt s (siblingOf s.cur)
  let busy := img.slots.any fun p => (o.chunk.slots ++ (o.closed.map Chunk.slots).getD []).any fun x => x.1 == p.1
  let s := drainCore (if busy then { s with outOfTurn := true } else s)
  let n := Nat.min (imageRows d.head) (s.c.rows (s.cur % 2))
  let rows := if s.cur % 2 = 0 then List.range n else (List.range n).map fun i => 512 - n + i
  let c1 := rows.foldl (fun c g => putTileRow c g ((List.range 128).map fun j =>
    BitVec.ofNat 32 (dfld d.tiles (512 * g + 4 * j) 4))) s.c
  let c2 := img.slots.foldl (fun c p => putSlot c p.1 { p.2 with owner := some s.cur }) c1
  let q := 512 + 8 * (s.cur % 2)
  { s with c := { c2 with bad := c2.bad.filter fun g => !(rows.contains g || (decide (q ≤ g) && decide (g < q + 8))) } }

/-- The bits of TRAPBLAME that are not reserved (R155). -/
def blameBits (v : Word) : Word := v &&& ~~~((3 : Word) <<< 52)

/-- The VFID of an image; bits [7:6] of its byte are no part of it (R355). -/
def imageVf (h : List Byte) : Nat := dfld h 9 1 % 64

/-- The context of an image takes the place of the state of the thread that moves (R399), zeroing first at a change of
tenant (R361); the system registers of the S block where the load is at H and the image holds them. `load`: by a CTXLOAD, which
renegotiates the share (R399); a start does not (R101). -/
def installImage (s : State) (d : ImageData) (pc : Nat) (atH load : Bool) : State :=
  let h := d.head
  let st := isSteward s.cur
  let sv := findSave s.saves (imageIs d st)
  let img := sv.2
  let s1 := passTenant (setAside s) (imageVf h)
  let s2 := if st then s1 else loadMatrix (if load then renegotiate s1 else s1) d img
  let s3 := if sv.1 = 0 then s2 else renameMember s2 img s.cur (imageGroups h)
  let flags := dfld h 0xB 1
  modT { s3 with fresh := s3.fresh + (if sv.1 = 0 then 1 else 0) } fun t =>
    let t1 := { t with a := imageArch d img pc, vfid := imageVf h, grants := imageGrants h, groups := imageGroups h,
                       ctx := if sv.1 = 0 then s3.fresh + 1 else img.ctx,
                       chkstat := Vector.ofFn fun i : Fin 5 => hdw h (0x118 + 8 * (5 + i.val)),
                       parkLeft := none, parkKept := if bitAt flags 1
                         then [((bitsOf52 2 (hdw h 0)).toNat, levelOf (dfld h 8 1), hdw h 0x10)] else [], stall := .none, pass := none }
    if atH && bitAt flags 2 then
      let b (i : Nat) : Word := hdw h (0x4E8 + 8 * i)
      { t1 with tvec := bitsOf52 2 (b 0), tstatus := BitVec.ofNat 8 (fld (b 1) 5 3 * 32 + fld (b 1) 0 1),
                trappc := bitsOf52 2 (b 2), trapcause := (b 3).setWidth 8, trapaddr := b 4,
                trapblame := blameBits (b 5), trapstream := wd ((b 6).toNat % 2048), dumpbase := bitsOf52 23 (b 8) ||| wd (fld (b 8) 0 8),
                ptbase := wd (fld (b 9) 12 38 * 4096), asid := (b 10).setWidth 16, keyid := (b 11).toNat % 8192 }
    else t1

/-- A new chunk starts from the state as it stands: its checkpoint is taken now (R277). Its first instruction is the next one, or that
which has begun it. -/
def rebase (s : State) : State :=
  modT s fun t => { t with ckptOpen := t.a, ckpt := if t.closed.isNone then t.a else t.ckpt,
                           chunk := { t.chunk with pc := if t.chunk.idle then t.a.pc else t.chunk.pc } }

/-- Does an image's header break the limits of a starter (R94)? S starts only a context of its own VFID at U or S. -/
def beyondStart (lvl : Level) (vf : Nat) (h : List Byte) : Bool := lvl != .h && (imageVf h != vf || decide (1 < dfld h 8 1))

/-- May a starter not start the context of a header at the thread that moves: beyond the limits of R94, or beside a sibling of another
VFID (R361)? -/
def startBarred (s : State) (lvl : Level) (vf : Nat) (h : List Byte) : Bool :=
  let sib := threadAt s (siblingOf s.cur)
  beyondStart lvl vf h || (!isSteward s.cur && sib.run != .halted && sib.vfid != imageVf h)

/-- A starting wake at the thread that moves (R90, R94): status 0 started, 1 beyond the sender's limits or a sibling of another VFID
(R361), 3 the image does not read. The image is read under the target's tables at the sender's level (log entry 16). A start does
not test CHECK: R94 starts every readable image, and R399 states the test for CTXLOAD alone (log entry 87). -/
def startContext (s : State) (image : Word) (lvl : Level) (vf : Nat) : State × Nat :=
  let s0 := modT s fun t => { t with lvl := lvl }
  let back (s : State) : State := modT s fun t => { t with lvl := .u, chunk := Chunk.empty 0 0 }
  match readImage s0 image with
  | (s1, .error _) => (back s1, 3)
  | (s1, .ok d) =>
    let h := d.head
    if startBarred s1 lvl vf h then (back s1, 1)
    else
      let pc := (bitsOf52 2 (hdw h 0)).toNat
      let s2 := installImage s1 d pc (lvl == .h) false
      (rebase (modT s2 fun t =>
        { t with a := { t.a with token := false, sc := 0, ste := 0, bases := [], strip := [] }, grants := [], ctxbase := image,
                 run := .running, lvl := levelOf (dfld h 8 1), chunk := Chunk.empty pc 0, closed := none, begun := none, late := [],
                 squashes := 0, streak := 0, wanted := [], reserving := false, passEffort := Effort.zero, draw := none,
                 drawOld := none }), 0)

/-- The thread that moves enters HALTED and gives up what it holds (R400). -/
def haltThread (s : State) : State :=
  let s1 := drainEngines s
  let s2 := s1.t.groups.foldl (fun s g => (leaveGroup s g s.cur).1) s1
  let s3 := s2.t.grants.foldl (fun s g => abandonGrant s s.cur g) s2
  let me : BitVec 2 := if s.cur % 2 = 0 then 1 else 2
  let s4 := if isSteward s.cur then s3 else
    { s3 with c := { setHolding s3.c (s.cur % 2) 0 with
        lc := s3.c.lc.map (fun h => if h = me then 0 else h),
        lcNext := s3.c.lcNext.map fun l => l.map fun h => if h = me then 0 else h, mat := s3.c.mat.filter fun m => m.tid != s.cur } }
  let r := Arch.reset 0
  modT s4 fun t =>
    { t with run := .halted, groups := [], grants := [], pass := none, stall := .none, preS := false, preH := false,
             deferred := none, parkLeft := none, parkKept := [],
             a := { t.a with nodes := [], leaves := [], saved := none, inner := [], freeing := none, v := r.v, m := r.m, token := false } }

/-- The group record of a dump (R403). -/
def groupRecord (s : State) (g : Nat) : List Byte :=
  match groupAt s g with
  | none => List.replicate 8192 0
  | some r => fitLen 8192 (wordBytes [wd (g + r.members.length * 65536 + 2 ^ 63), BitVec.ofInt 64 r.cp] ++
      (r.members.map fun (m : Member) => wordBytes [wd m.tid, BitVec.ofInt 64 m.ap]).flatten)

/-- The loom regions of the core that the tenant owns (R403). -/
def ownedRegions (s : State) : List Nat :=
  if isSteward s.cur then [] else
    (List.range 16).filter fun r =>
      (fotEntry s (fld s.t.fotbase 16 34 * 65536) (56623104 + 16 * loomOf (coreOf s.cur) + r)) / 65536 % 128 == s.t.vfid

/-- Bytes of memory from a key. -/
def memRun (s : State) (k n : Nat) : List Byte := (List.range n).map fun i => memByte s (k + i)

/-- The time of its die at the core of the thread that moves: one at rest has come to what its die has (R133). -/
def coreNow (s : State) : Nat :=
  if s.c.waits || s.c.gated then Nat.max s.c.clock (dieTime s (dieOf (coreOf s.cur))) else s.c.clock

/-- The chunk in which the dump engine reads TCM and the loom regions that the tenant owns (R403): its slices are held when it commits. -/
def dumpReads (s : State) : Chunk :=
  if isSteward s.cur then Chunk.empty 0 0 else
    let core := coreOf s.cur
    let run (k : Nat) : List Nat := (List.range 64).map fun i => k / 4096 + i
    { Chunk.empty 0 0 with
      readG := run (tcmKey core 0) ++ ((ownedRegions s).map fun r => run (loomKey (loomOf core) (262144 * r))).flatten }

/-- The sections of a dump record, LENGTH left for last (R403). -/
def dumpSegs (s : State) (t : Trap) (pc : Nat) (fatal : Bool) (reason : Word) : List (Nat × List Byte) :=
  let regs := ownedRegions s
  let map := (regs.map fun r => 2 ^ r).foldl (· + ·) 0
  let code := t.cause + 256 * b2n fatal
  let ring := ((List.range 512).map fun i => (List.range 4).map fun j =>
    ringWord s.c ((s.c.ringNext + i) % 512) j).flatten
  [(8, wordBytes ([wd code, reason] ++
      (if t.cause = 0 then [s.t.trappc, s.t.trapaddr, s.t.trapblame, s.t.trapstream] else [wd pc, t.addr, t.blame, t.stream]) ++ [
      wd (s.cur + coreOf s.cur * 65536 + s.t.vfid * 2 ^ 32), ticksOf (coreNow s), wd map]) ++
    List.replicate 3968 0)] ++
  (imageSegs s (nextSave s) pc s.t.lvl true).map (fun p => (p.1 + 0x1000, p.2)) ++
  (if isSteward s.cur then [] else [(0x5F000, memRun s (tcmKey (coreOf s.cur) 0) 262144)]) ++
  [(0x9F000, wordBytes ring)] ++
  ((List.range 8).map fun i => (0xA3000 + 8192 * i,
    match s.t.groups[i]? with
    | none => List.replicate 8192 0
    | some g => groupRecord s g)) ++
  ((List.range regs.length).map fun i =>
    (0xB3000 + 0x40000 * i, memRun s (loomKey (loomOf (coreOf s.cur)) (262144 * (regs.getD i 0))) 262144))

/-- Write a run of bytes for the dump engine into its chunk (R403): the frames must be the tenant's own. -/
def dumpRun (s : State) (c : Chunk) (va : Word) (b : List Byte) : Nat → State × Option Chunk
  | 0 => (s, some c)
  | n + 1 =>
    if b.isEmpty then (s, some c) else
      let k := Nat.min b.length (64 - va.toNat % 64)
      match agentWrite s (who s) va with
      | (s1, .error _) => (s1, none)
      | (s1, .ok p) =>
        if !keyedFrame s1 p true then (s1, none)
        else dumpRun s1 { c with writes := (keyed p (b.take k)).reverse ++ c.writes,
                                 writeG := addItem c.writeG (p / 4096) } (va + wd k) (b.drop k) n

/-- Write the segments of a dump, each as a chunk of the dump engine, numbered from n on (R270). -/
def dumpAll (s : State) (va : Word) (n : Nat) : List (Nat × List Byte) → State × Bool
  | [] => (s, true)
  | (o, b) :: t =>
    match dumpRun s (Chunk.empty 0 n) (va + wd o) b (b.length + 1) with
    | (s1, none) => (s1, false)
    | (s1, some c) => dumpAll (commitItems s1 (4194304 + s1.cur) c [wd c.writes.length]) va (n + 1) t

/-- The end of a dump record (R403, R404). -/
def segEnd (l : List (Nat × List Byte)) : Nat := (l.map fun p => p.1 + p.2.length).foldl Nat.max 0

/-- Write a dump of the thread that moves (R402 to R404): its record, then the kind 11 records. -/
def writeDump (s : State) (t : Trap) (pc : Nat) (fatal : Bool) (reason : Word) : State :=
  let base := fld s.t.dumpbase 23 29
  let next := fld s.t.dumpbase 4 4
  let last := fld s.t.dumpbase 0 4
  let va := wd (base * 8388608 + next * 8388608)
  let note (s : State) (st : Nat) : State :=
    let lo := wd (11 * 2 ^ 56 + st * 2 ^ 52 + t.cause * 2 ^ 40 + s.cur)
    let hi := if st = 1 then 0 else va
    hRecord (vfRecord s s.t.vfid lo hi) lo hi
  if base = 0 then note s 1 else
    let segs := dumpSegs s t pc fatal reason
    let r := dumpReads s
    let agent := 4194304 + s.cur
    let s0 := if r.readG.isEmpty then keepSave s else commitItems (keepSave s) agent r [0]
    match dumpAll s0 va (b2n (!r.readG.isEmpty)) (segs ++ [(0, leBytes 8 (segEnd segs))]) with
    | (s1, false) => note s1 2
    | (s1, true) =>
      note (modT s1 fun t => { t with dumpbase := wd (base * 8388608 + (if next = last then 0 else (next + 1) % 16) * 16 + last) }) 0

end Sys2Proof.Machine
end

