-- ==== Sys2Proof/Machine/Flags.lean ====
section
/-! DEFINITION. Machine/Flags.lean: the sticky flags of FSTAT as instructions set them (R79, R82, R108). -/

namespace Sys2Proof.Machine

open Sys2Proof

/-- Set flags: hardware only sets a flag and never clears one (R79). -/
def raise (s : State) (f : BitVec 6) : State := modA s fun a => { a with fstat := a.fstat ||| f }

/-- The DZ flag of an integer division by zero (R108). -/
def raiseDZ (s : State) : State := raise s fDZ

end Sys2Proof.Machine
end

