-- ==== Sys2Proof/Machine/Lanes.lean ====
section
/-! DEFINITION. Machine/Lanes.lean: the core's clock (R133) and the lane-cycle record of a pass (R102, R212 to R215, R221 to
R224). -/

namespace Sys2Proof.Machine

open Sys2Proof

/-- INC at a frequency: 2^32 × 1,000 / FCUR rounded to nearest, ties to even (R133). -/
def incOf (fcur : Nat) : Nat :=
  let q := 4294967296000 / fcur
  let r := 4294967296000 % fcur
  if fcur < 2 * r ∨ (2 * r = fcur ∧ q % 2 = 1) then q + 1 else q

/-- n core cycles pass on a core's clock: CYC and the nominal-cycle accumulator advance, and the clock runs on in its die's time
(R133). -/
def Core.advance (c : Core) (n : Nat) : Core :=
  let t := c.nom.toNat * 4294967296 + c.frac.toNat + n * incOf c.fcur
  { c with cyc := c.cyc + wd n, nom := wd (t / 4294967296), frac := BitVec.ofNat 32 t, clock := c.clock + n * incOf c.fcur }

/-- A division rounded up. -/
def ceilDiv (a b : Nat) : Nat := (a + b - 1) / b

/-- The cycles that n elements of an occupancy keep a lane busy (R213): 2 FMA units, 2 ALUs, one of each other class (R167). -/
def busyFor (n : Nat) (o : Occ) : Nat :=
  Nat.max n (Nat.max (ceilDiv o.fma 2) (Nat.max (ceilDiv o.alu 2) (Nat.max o.sfu (Nat.max o.cvt o.xq))))

/-- The cycles that a lane is busy issuing its elements. -/
def LaneWork.busy (w : LaneWork) : Nat := busyFor w.n w.occ

/-- The cycles that it would be busy without the nodes that captures alone read (R224). -/
def LaneWork.main (w : LaneWork) : Nat :=
  busyFor w.n { fma := w.occ.fma - w.side.fma, alu := w.occ.alu - w.side.alu, sfu := w.occ.sfu - w.side.sfu,
                cvt := w.occ.cvt - w.side.cvt, xq := w.occ.xq - w.side.xq }

/-- No occupancy. -/
def Occ.none : Occ := { fma := 0, alu := 0, sfu := 0, cvt := 0, xq := 0 }

/-- The sum of two occupancies. -/
def Occ.plus (a b : Occ) : Occ :=
  { fma := a.fma + b.fma, alu := a.alu + b.alu, sfu := a.sfu + b.sfu, cvt := a.cvt + b.cvt, xq := a.xq + b.xq }

/-- Work of a lane that has issued nothing. -/
def LaneWork.zero : LaneWork := { n := 0, occ := Occ.none, side := Occ.none, useful := 0, masked := 0, span := 0, ends := 0, last := 0, far := 0, out := [] }

/-- Twelfths of a core cycle that d cycles of a logical cluster take where its thread holds k physical ones (R102): 4/k of the time. -/
def twelfths (k d : Nat) : Nat := d * 48 / k

/-- The time at which a lane that could issue at a time does (R215): with 16 of its elements in the collector, out of element order, it waits until that
releases one. -/
def LaneWork.collects (w : LaneWork) (t : Nat) : Nat :=
  let l := w.out.filter fun e => decide (e.1 ≤ t) && decide (t < e.2)
  if l.length < 16 then t else (l.map Prod.snd).foldl Nat.min w.far

/-- A lane issues one element on k physical clusters, its cluster having waited for `lost` cycles: the cycles that it adds are USEFUL, or
MASKED where every sink excludes it (R223); a wait for the collector is neither. -/
def LaneWork.issue (w : LaneWork) (k lost : Nat) (e : LaneElem) : LaneWork :=
  let x := { w with n := w.n + 1, occ := w.occ.plus e.occ, side := w.side.plus e.side }
  let d := x.main - w.main
  let t0 := Nat.max (12 * lost + w.span) (if w.n = 0 then 0 else w.last + twelfths k 1)
  let t1 := w.collects t0
  let t := Nat.max (w.span + twelfths k (x.busy - w.busy)) (if t1 = t0 then 0 else t1 + twelfths k 1 - 12 * lost)
  let leave := t1 + 12 * e.depth
  let out := w.out.filter fun e => decide (t1 < e.2)
  let y := { x with span := t, ends := 12 * lost + t, last := t1, far := Nat.max w.far leave,
                    out := if leave < w.far then (leave, w.far) :: out else out }
  if e.active then { y with useful := y.useful + d } else { y with masked := y.masked + d }

/-- A lane spends d cycles on what no sink takes (R221, R222). -/
def LaneWork.spend (w : LaneWork) (k lost d : Nat) : LaneWork :=
  let t := w.span + twelfths k d
  { w with masked := w.masked + d, span := t, ends := 12 * lost + t }

/-- A lane with elements still to come stands idle until the lanes of its cluster have issued (R221): of its slots no class but USEFUL is
left (R223). -/
def LaneWork.await (w : LaneWork) (span : Nat) : LaneWork :=
  { w with useful := w.useful + ceilDiv (span - w.span) 12, span := Nat.max span w.span }

/-- The record before any group. -/
def Tally.zero : Tally := { work := [], runs := Vector.replicate 4 0, held := [] }

/-- Lane i's work. -/
def Tally.lane (t : Tally) (i : Nat) : LaneWork := spGet LaneWork.zero t.work i

/-- Change lane i's work. -/
def Tally.upd (t : Tally) (i : Nat) (f : LaneWork → LaneWork) : Tally := { t with work := spPut t.work i (f (t.lane i)) }

/-- Change the work of the lanes of cluster c that lie below n. -/
def Tally.lanes (t : Tally) (c n : Nat) (f : LaneWork → LaneWork) : Tally :=
  (List.range (Nat.min 16 n)).foldl (fun t l => t.upd (16 * c + l) f) t

/-- The time that the busiest lane of cluster c has taken, in twelfths of a cycle (R213). -/
def Tally.spanOf (t : Tally) (c : Nat) : Nat := (t.work.map fun x => if x.1 / 16 = c then x.2.span else 0).foldl Nat.max 0

/-- Where a cluster's work enters the record: its number, the physical clusters that its thread holds, the cycles that it has waited, and the
lanes that still have an element below the pass's length. -/
structure Place where
  /-- Cluster. -/
  c : Nat
  /-- Physical clusters. -/
  k : Nat
  /-- Cycles lost. -/
  lost : Nat
  /-- Lanes with a further element. -/
  more : Nat

/-- A group issues: occupancy, its part for captures alone, and activity of its elements, first lane first. -/
def Tally.group (t : Tally) (a : Place) (els : List LaneElem) : Tally :=
  let r := els.foldl (fun (p : Tally × Nat) x =>
    (p.1.upd (16 * a.c + p.2) fun w => w.issue a.k a.lost x, p.2 + 1)) (t, 0)
  { r.1 with runs := r.1.runs.setIfInBounds a.c 0 }

/-- A cluster skips a group (R221), once its lanes have issued every earlier element: one cycle of scanning for each 8 in a run, MASKED in the
lanes that still have an element below the length. -/
def Tally.skip (t : Tally) (a : Place) : Tally :=
  let n := t.runs.toList.getD a.c 0
  let t1 := { t with runs := t.runs.setIfInBounds a.c (n + 1) }
  if n % 8 ≠ 0 then t1 else
    let span := t1.spanOf a.c
    t1.lanes a.c a.more fun w => (w.await span).spend a.k a.lost 1

/-- A cluster runs up to 16 held elements as one dense group (R222), the j-th of them on lane j (DESIGN CHOICE, log entry 124): an empty place
is MASKED in a lane that has a further element, and BEYOND in another (R223). -/
def Tally.dense (t : Tally) (a : Place) (els : List Occ) : Tally :=
  let t1 := t.group a (els.map fun o => { occ := o, side := Occ.none, active := true, depth := 0 })
  let d := (List.range els.length).foldl (fun m l => Nat.max m ((t1.lane (16 * a.c + l)).useful - (t.lane (16 * a.c + l)).useful)) 0
  ((List.range (Nat.min 16 a.more)).drop els.length).foldl (fun t l => t.upd (16 * a.c + l) fun w => w.spend a.k a.lost d) t1

/-- The held elements of cluster c, oldest first: row and occupancy. -/
def Tally.heldOf (t : Tally) (c : Nat) : List (Nat × Occ) := (t.held.filter fun h => h.1 == c).reverse.map Prod.snd

/-- Some of a cluster's held elements run as a dense group, the rest stay held. -/
def Tally.runDense (t : Tally) (a : Place) (l rest : List (Nat × Occ)) : Tally :=
  { t.dense a (l.map Prod.snd) with held := (t.held.filter fun x => x.1 != a.c) ++ (rest.map fun x => (a.c, x.1, x.2)).reverse }

/-- Group by group, what a slip window of 8 rows is about to pass of a cluster's held elements, before a group of a row, runs as a partial merged
group (R222). -/
def Tally.slide (t : Tally) (a : Place) (row : Nat) : Tally :=
  let pass (t : Tally) : Tally :=
    match t.heldOf a.c with
    | [] => t
    | x :: l =>
      if x.1 + 8 ≤ row then t.runDense a ((x :: l).filter fun y => y.1 == x.1) ((x :: l).filter fun y => y.1 != x.1) else t
  (List.range 8).foldl (fun t _ => pass t) t

/-- A cluster's held elements run before its group of a row (R222): what its slip window is about to pass; then 16 elements run as a dense
group. -/
def Tally.release (t : Tally) (a : Place) (row : Nat) : Tally :=
  let t1 := t.slide a row
  let h := t1.heldOf a.c
  if 16 ≤ h.length then t1.runDense a (h.take 16) (h.drop 16) else t1

/-- All that a cluster holds runs (R222). -/
def Tally.flush (t : Tally) (a : Place) : Tally :=
  match t.heldOf a.c with
  | [] => t
  | l => t.runDense a l []

/-- A group of cluster c is held (R222): its active elements wait to be merged, and a run of skipped groups ends. -/
def Tally.hold (t : Tally) (c row : Nat) (els : List Occ) : Tally :=
  { t with held := (els.map fun o => (c, row, o)).reverse ++ t.held, runs := t.runs.setIfInBounds c 0 }

/-- Physical clusters that the thread holds (R100). -/
def clustersHeld (s : State) : Nat :=
  (s.c.lc.toList.filter fun h => h == (if s.cur % 2 = 0 then 1 else 2)).length

/-- A user interrupt of a thread is pending (R267). -/
def Thread.uiWaits (t : Thread) : Bool := !t.a.uiactive && (t.a.done &&& t.a.uien) != 0

/-- Does a thread accept a pending pre-emption request at its level (R390)? -/
def Thread.takesPre (t : Thread) : Bool :=
  (t.preH && (t.lvl != .h || t.hstatus.getLsbD 5)) ||
  (t.preS && (t.lvl == .u || (t.lvl == .s && t.tstatus.getLsbD 5)))

/-- May the core of the thread that moves gate, its counted cycles apart (R99): its threads PARKED or HALTED, nothing in flight, its
commit buffer empty, and no interrupt on its way? -/
def restful (s : State) : Bool :=
  let core := coreOf s.cur
  decide (core < 160) && s.c.mat.isEmpty && s.c.relock.isNone && !(s.engines.any fun e => coreOf e.tid == core) &&
  [s.cur, siblingOf s.cur].all fun i =>
    let t := threadAt s i
    (t.run == .parked || t.run == .halted) && t.pass.isNone && t.chunk.writes.isEmpty && t.closed.isNone && t.redo.isNone &&
    !(t.run == .parked && (t.takesPre || t.uiWaits))

/-- A thread's counts in core cycles go down: PARK.C's (R97), YIELD's (R98), PANGET's (R321), and that of late operands (R128). -/
def Thread.countDown (t : Thread) (n : Nat) : Thread :=
  { t with parkLeft := if t.run = .timed then t.parkLeft.map fun v => wd (v.toNat - n) else t.parkLeft,
           stall := match t.stall with
             | .yield k => .yield (k - n)
             | .panget k => .panget (k - n)
             | .late k => .late (k - n)
             | x => x }

/-- Does a thread count core cycles? -/
def Thread.counts (t : Thread) : Bool :=
  t.run == .timed || (match t.stall with
    | .yield _ => true
    | .panget _ => true
    | .late _ => true
    | _ => false)

/-- Has cluster c no element in the pass (R214)? -/
def Pass.without (p : Pass) (c : Nat) : Bool := decide (p.len ≤ p.start.toList.getD c 0)

/-- The lanes of cluster c that still have an element below the length, as a number. -/
def Pass.more (p : Pass) (c : Nat) : Nat := p.len - p.at c

/-- Where cluster c's work enters the record, on k physical clusters, from an element of it on. -/
def Pass.place (p : Pass) (k c first : Nat) : Place := { c := c, k := k, lost := p.lost.toList.getD c 0, more := p.len - first }

/-- Cycles after the start-up in which a lane of a queue's pass has issued what it has, at a rate (R185). -/
def queueEnd (p : Pass) (q lane : Nat) : Nat :=
  let first := p.start.toList.foldl Nat.min p.start[0]
  let stop := p.first
  if stop ≤ lane then 0 else q * ((stop - 1 - lane) / 64 * 64 + lane + 1 - first)

/-- The cycle after the start-up in which lane i has issued what it has (R102, R213); in a queue's pass at its rate (R185). -/
def Pass.laneEnd (p : Pass) (q i : Nat) : Nat :=
  if p.xq then p.lost.toList.getD (i / 16) 0 + queueEnd p q i else ceilDiv (p.tally.lane i).ends 12

/-- Cycles from a pass's start in which its lanes have issued what they have, waits included: the start-up and the busiest of them (R213, R214). -/
def Pass.timeOf (p : Pass) : Nat :=
  48 + Nat.max (((List.range 64).map (p.laneEnd p.rate)).foldl Nat.max 0)
    (if p.xq then 0 else ((List.range 4).map fun c => p.lost.toList.getD c 0 + ceilDiv (p.tally.spanOf c) 12).foldl Nat.max 0)

/-- The time at which the lanes of cluster c have issued what they have, in twelfths of a cycle after the start-up: its next group issues then
(R213). -/
def Pass.issueAt (p : Pass) (c : Nat) : Nat := 12 * p.lost.toList.getD c 0 + p.tally.spanOf c

/-- The first elements of the groups that cluster c holds (R222). -/
def Pass.heldFirsts (p : Pass) (c : Nat) : List Nat := ((p.tally.heldOf c).map fun x => 64 * x.1 + 16 * c).eraseDups

/-- The row of the first group of cluster c that has an element still to issue, a held one among them (R216, R222); none where none has. -/
def Pass.row (p : Pass) (c : Nat) : Option Nat :=
  match (p.tally.heldOf c).head?, decide (p.at c < p.len) with
  | some x, _ => some x.1
  | none, true => some (p.at c / 64)
  | none, false => none

/-- May cluster c issue, the slowest unfinished cluster less than 8 rows behind (R216)? -/
def Pass.mayIssue (p : Pass) (c : Nat) : Bool :=
  (List.range 4).all fun d => (p.row d).all fun r => c == d || decide (p.at c / 64 < r + 8)

/-- The time from which the slip limit lets cluster c issue: every group of another cluster that lies 8 rows back is complete then (R216). -/
def Pass.slipAt (p : Pass) (c : Nat) : Nat :=
  ((p.ends.filter fun e => e.1 / 16 % 4 != c && decide (e.1 / 64 + 8 ≤ p.at c / 64)).map Prod.snd).foldl Nat.max 0

/-- The time at which the next group of cluster c issues: its lanes are free and the slip limit lets it (R213, R216); where clusters slip, not before
what the others have issued meanwhile. -/
def Pass.nextAt (p : Pass) (slips : Bool) (c : Nat) : Nat :=
  Nat.max (Nat.max (if slips then p.clock else 0) (p.issueAt c)) (p.slipAt c)

/-- The cluster whose group comes next: where clusters slip, of those that may issue the one that can do so first, the lowest of several;
else the one whose group comes first in element order (log entry 33). Of several chunk ends that a replay asks for, none is passed. -/
def Pass.pick (p : Pass) (slips : Bool) (stop : Option (Vector Nat 4)) : Option Nat :=
  let least (f : Nat → Nat) (l : List Nat) : Option Nat :=
    l.foldl (fun b c => match b with
      | none => some c
      | some d => if f c < f d then some c else some d) none
  let l := p.open.filter fun c => stop.all fun v => decide (p.at c < v.toList.getD c 0)
  if slips then least (p.nextAt true) (l.filter p.mayIssue) else least p.at l

/-- The time at which the group at an element is complete (R217): none while it is held or has not been worked. Those of a chunk that has committed are
complete. -/
def Pass.doneAt (p : Pass) (first : Nat) : Option Nat :=
  let c := first / 16 % 4
  if p.at c ≤ first ∨ (p.heldFirsts c).contains first = true then none
  else some (((p.ends.find? fun e => e.1 == first).map Prod.snd).getD 0)

/-- The watchpoint trap at which a pass stops first, and when: of several at one stop that of the lower watchpoint (R411 to R413). -/
def Pass.watchDue (p : Pass) : Option (Trap × Nat) :=
  (p.watch.foldl (fun (b : Option (Trap × Nat × Nat)) w => match p.doneAt w.2.1, b with
    | none, _ => b
    | some t, none => some (w.1, t, w.2.2)
    | some t, some x => if t < x.2.1 ∨ (t = x.2.1 ∧ w.2.2 < x.2.2) then some (w.1, t, w.2.2) else b) none).map fun x => (x.1, x.2.1)

/-- Is a reduction the sum of R84, which keeps an accumulator for each lane? -/
def laneSum (op : RedOp) (t : Nat) : Bool := op == .add && tyFloat t

/-- Do the clusters of a pass slip against each other (R216)? In the model those of a pass whose result does not depend on the order of its groups:
stores by unit stride or in segments, sums by lane, other reductions of integers and masks. The groups of any other take effect, and complete, in
element order (R200, R201; DESIGN CHOICE, log entry 33). -/
def slipsIn (a : Arch) (p : Pass) : Bool :=
  !p.xq && !(a.leaves.any Leaf.ff) && p.sinks.all fun k => match k.kind with
    | .store _ .unit => true
    | .store _ (.seg _) => true
    | .capture _ _ => true
    | .reduce op _ withIdx => !withIdx && (laneSum op (k.srcs.headD Val.empty).ty || !tyFloat (k.srcs.headD Val.empty).ty)
    | _ => false

/-- The restart vector of a pass that stops at a time (R217, R218, R222): in each cluster the first element that is not complete, of a group in
flight or of a held one; where groups complete in element order, of none after the first such group. -/
def Pass.stopVec (p : Pass) (slips : Bool) (t : Nat) : Vector Nat 4 :=
  let l := ((p.ends.filter fun e => decide (t < e.2)).map Prod.fst) ++ ((List.range 4).map p.heldFirsts).flatten
  if slips then p.next.mapIdx fun c v => (l.filter fun e => e / 16 % 4 == c).foldl Nat.min v
  else match l with
    | [] => p.next
    | e :: r => p.next.mapIdx fun c v => Nat.min v (clusterFirst c (r.foldl Nat.min e))

/-- The time of a pass, as for its clock, that its core has come to. -/
def Pass.now (p : Pass) (c : Core) : Nat := 12 * ((c.cyc - p.began).toNat - 48)

/-- Core cycles until a pass's next group may issue, or until it ends (R213, R214). A pass without elements ends at once. -/
def Pass.dueIn (p : Pass) (slips : Bool) (pick : Option Nat) (c : Core) : Nat :=
  let need := match pick with
    | none => if (List.range 4).all p.without then 0 else p.timeOf
    | some i => if p.xq then p.timeOf else 48 + ceilDiv (p.nextAt slips i) 12
  need - (c.cyc - p.began).toNat

/-- The group pointers of the running pass of the thread that moves (R216, R415): the first element of each cluster that is not complete; 0 without a
pass. -/
def groupPointers (s : State) : Vector Nat 4 :=
  match s.t.pass with
  | none => Vector.replicate 4 0
  | some p => p.stopVec (slipsIn s.t.a p) (p.now s.c)

/-- A SAMPLE record of the thread that moves (R415). -/
def sample (s : State) : State :=
  let w := vecWords (groupPointers s)
  traceRec s 8 false s.t.a.pc w.1 w.2

/-- The SAMPLE record of a cycle. -/
def sampleAt (s : State) (cyc : Nat) : State :=
  let s1 := sample { s with c := { s.c with cyc := wd cyc } }
  { s1 with c := { s1.c with cyc := s.c.cyc } }

/-- The cycles, of the next n of its core, in which thread tid leaves a SAMPLE record (R409, R415): one in every SAMPLE × 1,024, where FILTER
takes them, and none at H. Their number, and the last 512 of them with the thread. -/
def sampleTimes (s : State) (tid n : Nat) : Nat × List (Nat × Nat) :=
  let e := devGet s (paDebug tid 0x48)
  let k := 1024 * fld e 32 16
  let lo := s.c.cyc.toNat / k
  let hits := (s.c.cyc.toNat + n) / k - lo
  if k = 0 ∨ (threadAt s tid).lvl = .h ∨ bitAt e.toNat 8 = false then (0, [])
  else (hits, (List.range (Nat.min hits 512)).map fun i => ((lo + (hits - 512) + i + 1) * k, tid))

/-- Two lists in order of time, in one. -/
def mergeTimes : Nat → List (Nat × Nat) → List (Nat × Nat) → List (Nat × Nat)
  | 0, _, _ => []
  | _, [], l => l
  | _, l, [] => l
  | n + 1, x :: l, y :: r => if y.1 < x.1 then y :: mergeTimes n (x :: l) r else x :: mergeTimes n l (y :: r)

/-- The SAMPLE records of the core of the thread that moves in the next n core cycles, in the order of their cycles (R414, R415). Of more than
the ring takes the last are kept. -/
def sampled (s : State) (n : Nat) : State :=
  let x := sampleTimes s (if isSteward s.cur then s.cur else s.cur / 2 * 2) n
  let y := if isSteward s.cur then (0, []) else sampleTimes s (s.cur / 2 * 2 + 1) n
  let total := x.1 + y.1
  if total = 0 then s else
    let l := mergeTimes 1024 x.2 y.2
    let at_ := s.c.ringNext + (total - 512)
    let s1 := { s with c := { s.c with ringNext := at_ % 512, ringLaps := s.c.ringLaps + BitVec.ofNat 32 (at_ / 512) } }
    (l.drop (l.length - 512)).foldl (fun s e => onThread s e.2 fun s => sampleAt s e.1) s1

/-- n cycles of the core of the thread that moves pass (R97 to R99, R133): its clock and counters, the counts of both its threads, their
SAMPLE records, and its die's time. A core at rest gates in the 4,096th cycle, and no further one passes (R99). -/
def cyclesPass (s : State) (n : Nat) : State :=
  if s.c.gated || s.c.relock.isSome || s.c.off then s else
  let rest := restful s
  let gate := rest && decide (4096 ≤ s.c.idleFor + n)
  let n := if gate then 4096 - s.c.idleFor else n
  if n = 0 ∧ gate = false then s else
    let o := siblingOf s.cur
    let s0 := sampled s n
    let s1 := modT s0 fun t => t.countDown n
    let s2 := if !isSteward s.cur && (threadAt s1 o).counts then putThread s1 o ((threadAt s1 o).countDown n) else s1
    let c := s2.c.advance n
    raiseTime { s2 with c := { c with idleFor := if rest then c.idleFor + n else 0, gated := c.gated || gate } }
      (dieOf (coreOf s.cur)) c.clock

/-- The clock of the core of the thread that moves runs up to its die's time, and a free number of cycles more for what comes from
elsewhere (R133; log entry 3). A core whose clock stands (R99, R134, R429) takes up nothing. -/
def catchUp (s : State) : State :=
  if s.c.gated || s.c.relock.isSome || s.c.off then s
  else { cyclesPass s (ceilDiv (dieTime s (dieOf (coreOf s.cur)) - s.c.clock) (incOf s.c.fcur) + Config.extraCycles s.free) with
    free := s.free + 1 }

/-- What comes to a core at rest comes at its die's time (R99, R133); from then on its cycles are counted. -/
def wakeClock (s : State) (core : Nat) : State :=
  if (coreAt s core).waits then
    let s1 := onThread s (if core < 160 then 2 * core else 160 + core) catchUp
    putCore s1 core { coreAt s1 core with waits := false }
  else s

/-- The first tick of a reference timer at or after a time (R134). -/
def firstTick (t : Nat) : Word := wd (ceilDiv t 42949672960)

/-- FLIM of a compute core (R379). -/
def flimOf (s : State) (core : Nat) : Nat := fld (devGet s (paModule (0x1200 + 8 * core))) 0 12

/-- The highest frequency that CAP and FLIM allow a core (R130, R429), and 1,000 MHz at the least. -/
def ceilingOf (s : State) (core : Nat) : Nat := Nat.max 1000 (Nat.min (coreAt s core).cap (flimOf s core))

/-- What lowers a core to its ceiling (R432): 5 CAP, 6 FLIM. -/
def ceilingLimit (s : State) (core : Nat) : Nat := if (coreAt s core).cap ≤ flimOf s core then 5 else 6

/-- Does a rail read below its VMIN (R429)? -/
def railLow (s : State) (r : Nat) : Bool :=
  match (s.rails.find? fun e => e.1 == r).map Prod.snd with
  | none => false
  | some mv => decide (mv < fld (devGet s (paModule (0x1018 + 8 * r))) 0 16)

/-- TWARN and TCRIT (R379). -/
def twarnOf (s : State) : Nat := fld (devGet s (paModule 0x1008)) 0 8
/-- TCRIT. -/
def tcritOf (s : State) : Nat := fld (devGet s (paModule 0x1010)) 0 8
/-- PLIM. -/
def plimOf (s : State) : Nat := fld (devGet s (paModule 0x1000)) 0 16

/-- May the governor raise a core, its ceiling apart (R429): not above TWARN or TCRIT, nor before it reads 5 °C below where TWARN has lowered it; its
rail at VMIN or above, the module within PLIM? -/
def mayRaise (s : State) (core : Nat) : Bool :=
  let c := coreAt s core
  decide (c.temp ≤ twarnOf s) && decide (c.temp ≤ tcritOf s) && (!c.warm || decide (c.temp + 5 ≤ twarnOf s)) && !railLow s (Config.railOf core) &&
  decide (s.power ≤ plimOf s)

/-- The core's clock stops for a step to a frequency, for a reason of R432 (R134): CAP and FLIM as they are now bound it (R130), a step down is
counted with what lowered it, and the relock begins at the first tick of its die's timer. 0 leaves LIMIT. A step up that the limits do not allow
any more is not made (R429); a replay makes the recorded ones (R423). -/
def startStep (s : State) (core mhz limit : Nat) : State :=
  let top := ceilingOf s core
  let f := Nat.min mhz top
  let c := coreAt s core
  if f = c.fcur ∨ (c.fcur < f ∧ mayRaise s core = false ∧ replaying s = false) then putCore s core { c with stepHeld := none }
  else
    let s1 := onThread s (2 * core) fun s => journalEvent s 5 (wd f)
    let why := if top < mhz then ceilingLimit s core else limit
    let c1 := if f < c.fcur then
        { c with steps := Nat.min 65535 (c.steps + 1), limit := if why = 0 then c.limit else why } else c
    putCore s1 core { c1 with stepHeld := none, relock := some (f, firstTick c1.clock) }

/-- A gated core resumes (R99) at its die's time: a step that was held comes first, as an ordinary relock (R134). -/
def ungate (s : State) (core : Nat) : State :=
  let c := coreAt s core
  if !c.gated then s
  else
    let s1 := putCore s core { c with gated := false, idleFor := 0, waits := false, clock := Nat.max c.clock (dieTime s (dieOf core)) }
    match c.stepHeld with
    | none => s1
    | some f => startStep s1 core f.1 f.2

/-- Lane-cycles of a lane by class, in an interval after the start-up (R223). -/
structure LaneTime where
  /-- USEFUL cycles. -/
  useful : Nat
  /-- MASKED cycles. -/
  masked : Nat
  /-- STALLED cycles. -/
  wait : Nat
  /-- BEYOND cycles. -/
  beyond : Nat

/-- The cycles of a lane in an interval of n cycles after the start-up: it works, it waits until the cycle `ends` in which its last
element issues, or to the interval's end where it has elements `left`, and it is beyond for the rest (R223). -/
def laneTime (w : LaneWork) (n ends : Nat) (left : Bool) : LaneTime :=
  let work := w.useful + w.masked
  let wait := if left then n - work else Nat.min (n - work) (ends - work)
  { useful := w.useful, masked := w.masked, wait := wait, beyond := n - work - wait }

/-- Charge one cluster for a pass's interval: 48 cycles of start-up and n more (R214, R223, R224): USEFUL, MASKED, BEYOND, STARTUP,
STALLED are counters 0 to 4. Every slot before a lane's end counts as STALLED in a pass that runs only to capture. -/
def chargeCluster (s : State) (p : Pass) (n c : Nat) : State :=
  if p.without c then addLane s c 2 (wd (16 * (48 + n))) else
    let l := (List.range 16).map fun l =>
      let w := p.tally.lane (16 * c + l)
      laneTime w n (if w.n = 0 ∧ w.masked = 0 ∧ w.useful = 0 then 0 else p.laneEnd p.rate (16 * c + l)) (decide (l < p.more c))
    let sum (f : LaneTime → Nat) : Nat := (l.map f).foldl (· + ·) 0
    let u := sum LaneTime.useful
    let m := sum LaneTime.masked
    let s1 := addLane (addLane (addLane s c 3 768) c 4 (wd (sum LaneTime.wait + (if p.captureOnly then u + m else 0)))) c 2
      (wd (sum LaneTime.beyond))
    if p.captureOnly then s1 else addLane (addLane s1 c 0 (wd u)) c 1 (wd m)

/-- Charge the lanes for a pass that has stopped or ended (R102, R185, R213, R214, R223): the interval runs to the last issue; one that stops
in its start-up is charged all of that (DESIGN CHOICE, log entry 125). A pass none of whose clusters has an element left has no start-up. -/
def chargeLanes (s : State) (p : Pass) : State :=
  if (List.range 4).all p.without then s
  else (List.range 4).foldl (fun s c => chargeCluster s p (p.timeOf - 48) c) s

/-- The charged interval of a pass that has stopped may run on after the stop: its thread issues nothing before its end. -/
def lateStop (s : State) (p : Pass) : State :=
  let n := p.timeOf - (s.c.cyc - p.began).toNat
  if (List.range 4).all p.without ∨ n = 0 then s
  else modT s fun t => { t with late := (33, s.c.cyc + wd n) :: t.late }

end Sys2Proof.Machine
end

