-- ==== Sys2Proof/Machine/Ops.lean ====
section
/-! DEFINITION. Machine/Ops.lean: taking a trap and returning from one (R383 to R388, R396, R397), pre-emption and user
interrupts (R267, R389 to R391), and the shape of an instruction that may trap. -/

namespace Sys2Proof.Machine

open Sys2Proof

/-- A trap with no blame and no stream words. -/
def plainTrap (cause : Nat) (a : Word) : Trap := { cause := cause, addr := a, blame := 0, stream := 0 }

/-- Bit 7, NEST, of TSTATUS or HSTATUS (R386). -/
def nested (st : BitVec 8) : Bool := st.getLsbD 7

/-- The status after entry from a level: PPL, PIE := IE, IE := 0, NEST := 1 (R387); dbl is bit 4. -/
def entryStatus (st : BitVec 8) (lvl : Level) (dbl : Bool) : BitVec 8 :=
  BitVec.ofNat 8 (128 + 64 * b2n (st.getLsbD 5) + 16 * b2n dbl + lvl.code)

/-- The target of a trap is H (R385): H already, HCALL, a guest action, a pre-emption by H, or a double trap. -/
def trapToH (s : State) (t : Trap) (toH : Bool) : Bool :=
  decide (s.t.lvl = .h) || t.cause == 12 || toH || nested s.t.tstatus

/-- Is H reached only because S is already in a trap (R385)? -/
def isDouble (s : State) (t : Trap) (toH : Bool) : Bool :=
  !(decide (s.t.lvl = .h) || t.cause == 12 || toH) && nested s.t.tstatus

/-- Is a trap fatal (R401)? -/
def isFatal (s : State) (t : Trap) (toH fatal8 : Bool) : Bool :=
  t.cause == 15 || fatal8 || (trapToH s t toH && nested s.t.hstatus)

/-- Bits [51:2] of an address, as TRAPPC and UIPC keep them (R266, R386). -/
def pcBits (pc : Nat) : Word := wd (pc % 2 ^ 52 / 4 * 4)

/-- Entry to S (R387). -/
def enterS (t : Thread) (tr : Trap) (resume : Nat) : Thread :=
  { t with trappc := pcBits resume, trapcause := BitVec.ofNat 8 tr.cause, tstatus := entryStatus t.tstatus t.lvl false,
           trapaddr := tr.addr, trapblame := tr.blame, trapstream := tr.stream, lvl := .s,
           a := { t.a with pc := t.tvec.toNat } }

/-- Entry to H (R387). -/
def enterH (t : Thread) (tr : Trap) (resume : Nat) (dbl : Bool) : Thread :=
  { t with htrappc := pcBits resume, htrapcause := BitVec.ofNat 8 tr.cause, hstatus := entryStatus t.hstatus t.lvl dbl,
           htrapaddr := tr.addr, lvl := .h, a := { t.a with pc := t.hvec.toNat } }

/-- Taking a trap (R387): the last chunk of a completed pass and the open chunk commit, so that every access of the handler follows those of the
interrupted code (R451); a fatal trap dumps and halts (R401), any other enters S or H with the resume address, the cause, the status and the address
saved. `stopped` says that it stopped a pass; of a trap to H the ring has the TRAP record alone (R415, R416). A fatal one waits for its boundary to
come again until what the chunks have written to device registers has acted: its dump and its records follow that (R378). -/
def takeTrap (s0 : State) (tr : Trap) (resume : Nat) (toH fatal8 stopped : Bool) : State :=
  if isFatal s0 tr toH fatal8 && writesDevices s0 then
    rebase (modT (commitOpen (commitSealed s0)) fun t => { t with deferred := some tr, a := { t.a with pc := resume } })
  else
  let s := commitSealed s0
  let s1 := commitOpen (if tr.cause = 15 then journalEvent s 4 tr.addr else if fatal8 && tr.cause == 8 then journalEvent s 6 tr.addr else s)
  let h := trapToH s1 tr toH
  let dbl := isDouble s1 tr toH
  let fatal := isFatal s1 tr toH fatal8
  let tgt := if fatal then 0 else if h then 2 else 1
  let s2 := traceRec s1 5 false resume (wd (tr.cause + 256 * b2n fatal + 512 * tgt)) tr.addr
  let s3 := if stopped && (fatal || !h) then traceRec s2 6 false resume (vrs01Word s2.t.a) (vrs23Word s2.t.a) else s2
  if fatal then haltThread (writeDump s3 tr resume true 0)
  else rebase (modT s3 fun t =>
    let t1 := { t with stall := .none, run := .running }
    if h then enterH t1 tr resume dbl else enterS t1 tr resume)

/-- A precise trap at the instruction (R384): IRET re-executes it. -/
def trapHere (s : State) (cause : Nat) (a : Word) : State :=
  takeTrap s (plainTrap cause a) s.t.a.pc false false false

/-- A trap whose resume address is the next instruction (R396). -/
def trapNext (s : State) (cause : Nat) (a : Word) : State :=
  takeTrap s (plainTrap cause a) (s.t.a.pc + 4) false false false

/-- Illegal instruction: TRAPADDR holds the instruction word, zero-extended (R34, R387). -/
def illegal (s : State) (w : Nat) : State := trapHere s 1 (wd w)

/-- The trap of a faulting scalar access, precise at the instruction (R119); one that R348 sends to H goes there. -/
def fltTrap (s : State) (f : Flt) : State := takeTrap s (plainTrap f.cause f.addr) s.t.a.pc f.toH false false

/-- An instruction that exists on compute cores only traps on a steward as illegal (R2). -/
def onCompute (s : State) (w : Nat) (f : State → State) : State := if isSteward s.cur then illegal s w else f s

/-- An instruction with a lowest level (R50, R357, R395). -/
def atLevel (s : State) (low : Level) (w : Nat) (f : State → State) : State :=
  if s.t.lvl.code < low.code then illegal s w else f s

/-- An address must be a multiple of n; else alignment, before any effect (R46, R119). -/
def aligned (s : State) (va : Word) (n : Nat) (f : State → State) : State :=
  if va.toNat % n ≠ 0 then trapHere s 2 va else f s

/-- After a scalar access has taken effect, a watchpoint that matches it traps at the instruction's successor (R411). -/
def afterAccess (s : State) (va : Word) (n : Nat) (rd wrt : Bool) : State :=
  if watched s va n rd wrt then takeTrap s (plainTrap 10 va) s.t.a.pc false false false else s

/-- IRET (R397). -/
def returnFrom (s : State) : State :=
  rebase (modT (countOne s) fun t =>
    let f (st : BitVec 8) (keep : Nat) : BitVec 8 := BitVec.ofNat 8 (st.toNat % keep + 32 * b2n (st.getLsbD 6) +
      64 * b2n (st.getLsbD 6))
    if t.lvl = .s then
      { t with a := { t.a with pc := t.trappc.toNat }, lvl := levelOf (t.tstatus.toNat % 4), tstatus := f t.tstatus 4,
               afterIret := true }
    else
      { t with a := { t.a with pc := t.htrappc.toNat }, lvl := levelOf (t.hstatus.toNat % 4), hstatus := f t.hstatus 4,
               afterIret := decide (t.hstatus.toNat % 4 < 2) })

/-- A user interrupt is pending (R267). -/
def uiPending (s : State) : Bool := s.t.uiWaits

/-- Entry to a user interrupt at a boundary (R267): the lowest enabled flag that is set. It ends what a YIELD has still to wait, as a pre-emption
does (DESIGN CHOICE, log entry 131). -/
def enterUi (s : State) : State :=
  let s1 := commitOpen (journalEvent s 1 (evfWord s.t.a))
  let s2 := if s1.t.run = .parked then wr s1 s1.t.parkReg 1 else s1
  let k := Nat.log2 (let m := (s2.t.a.done &&& s2.t.a.uien).toNat; m &&& (2 ^ 16 - m))
  rebase (modT s2 fun t =>
    let a := t.a
    { t with run := .running, stall := .none,
             a := { a with shadow := #v[a.x[28], a.x[29], a.x[30], a.x[31]],
                           x := (((a.x.set 28 (wd k)).set 29 (a.evs.toList.getD k 0)).set 30 0).set 31 0,
                           uipc := pcBits a.pc, uiactive := true, pc := a.uivec.toNat } })

/-- Is a pending pre-emption accepted (R390)? -/
def preAccepted (s : State) : Bool :=
  s.t.takesPre

/-- A PARK.C that a pre-emption interrupts keeps its remaining count for its re-execution (R97): one of each level. -/
def keepPark (t : Thread) : Thread :=
  if t.run = .timed then
    { t with parkLeft := none,
             parkKept := (t.a.pc, t.lvl, t.parkLeft.getD 0) :: t.parkKept.filter fun e => e.2.1 != t.lvl }
  else t

/-- A request for pre-emption of a thread by a steward (R389): refused when it is HALTED or of another tenant. It ends the power
gating of the thread's core (R99). -/
def requestPreemption (s : State) (tid : Nat) (byH : Bool) (vf : Nat) : State × Bool :=
  let t := threadAt s tid
  if 336 ≤ tid ∨ t.run = .halted ∨ (byH = false ∧ t.vfid ≠ vf) then (s, false)
  else
    let s1 := ungate (wakeClock s (coreOf tid)) (coreOf tid)
    let t := threadAt s1 tid
    (putThread s1 tid (if byH then { t with preH := true } else { t with preS := true }), true)

/-- A taken branch or jump leaves a BRANCH record (R415) and passes control. -/
def branchTo (s : State) (target : Nat) : State := goTo (traceRec s 1 false s.t.a.pc (wd target) 0) target

/-- The element-group boundary, all of the thread's passes and its matrix steps waited for (R83). -/
def waitVector (s : State) : State := drainMatrix s

end Sys2Proof.Machine
end

