-- ==== Sys2Proof/Machine/Operands.lean ====
section
/-! DEFINITION. Machine/Operands.lean: how element operands are read (R142, R164, R165), what the pending graph reaches
(R140, R141), where the elements of a stream lie (R195) and which bytes a stream covers (R149). -/

namespace Sys2Proof.Machine

open Sys2Proof

/-- A lane of type src read as type t (R165): the w-bit pattern of an integer, an F32 pattern, or one bit. -/
def readAs (t src : Nat) (l : Lane) : Lane :=
  if tyFloat t then (l.setWidth 32).setWidth 64
  else if tyInt t then
    (if tyWide t then
      (if tyWide src then l else if tySigned src then (l.setWidth 32).signExtend 64 else (l.setWidth 32).setWidth 64)
     else wd (l.toNat % 2 ^ tyBits t))
  else wd (l.toNat % 2)

/-- A 64-bit value, such as a broadcast slot's, read as type t (R165, R206). -/
def readWord (t : Nat) (x : Word) : Lane := readAs t 3 x

/-- The integer that a pattern read as type t stands for (R169). -/
def patInt (t : Nat) (l : Lane) : Int :=
  let n := l.toNat % 2 ^ tyBits t
  if tySigned t && decide (2 ^ (tyBits t - 1) ≤ n) then (n : Int) - (2 ^ tyBits t : Nat) else n

/-- A pattern read as type t in the lane form of t (R62, R69, R457). -/
def holdAs (t : Nat) (l : Lane) : Lane :=
  if tyFloat t then (fit t (l.setWidth 32)).setWidth 64
  else if tyInt t then wrapInt t (patInt t l)
  else wd (l.toNat % 2)

/-- An element index read as type t (R165). -/
def readIndex (t e : Nat) : Lane :=
  if tyFloat t then (intToFp 8 0 false e).1.setWidth 64 else readWord t (wd e)

/-- What is known of one element while a pass works on it: nodes, leaf fields, captured registers, queue heads. -/
structure Env where
  /-- Node values by number. -/
  nodes : List (Nat × Lane)
  /-- Leaf values by 8 × slot + field. -/
  leaves : List (Nat × Lane)
  /-- Captured values by region base. -/
  caps : List (Nat × Lane)
  /-- Queue heads by XQSEND node: type and value. -/
  heads : List (Nat × Lane)
  /-- Nodes of other paths that the element has passed with a value of another type than theirs: number and that type (R181). -/
  passed : List (Nat × Nat)

/-- An element about which nothing is known but the queue heads. -/
def Env.start (heads : List (Nat × Lane)) : Env := { nodes := [], leaves := [], caps := [], heads := heads, passed := [] }

/-- A value found in a list by number; 0 where it is not listed. -/
def laneIn (l : List (Nat × Lane)) (k : Nat) : Lane := ((l.find? fun p => p.1 == k).map Prod.snd).getD 0

/-- The type of what a node of type t holds for the element: what an element of another path keeps has its own (R181). -/
def Env.typeOf (env : Env) (t i : Nat) : Nat := ((env.passed.find? fun p => p.1 == i).map Prod.snd).getD t

/-- What a node of type t holds for the element, in the lane form of that type. -/
def Env.node (env : Env) (t i : Nat) : Lane :=
  let u := env.typeOf t i
  let l := laneIn env.nodes i
  if u = t then l else holdAs t (readAs t u l)

/-- Element e of a value, in the lane form of its type; 0 at and beyond its length (R142). -/
def Val.at (v : Val) (env : Env) (e : Nat) : Lane :=
  if v.len ≤ e then 0 else
    match v.ref with
    | .res l => l.getD e 0
    | .leaf s f => laneIn env.leaves (8 * s + f)
    | .node i => env.node v.ty i
    | .merged _ i => env.node v.ty i
    | .capt b => laneIn env.caps b.toNat

/-- The same in the type that it has, with that type: a value that an element keeps from before a SPLIT is not yet one of the node's type
(R181). -/
def Val.raw (v : Val) (env : Env) (e : Nat) : Lane × Nat :=
  match v.ref with
  | .node i => if v.len ≤ e then (0, v.ty) else (laneIn env.nodes i, env.typeOf v.ty i)
  | .merged _ i => if v.len ≤ e then (0, v.ty) else (laneIn env.nodes i, env.typeOf v.ty i)
  | _ => (v.at env e, v.ty)

/-- The type of a queue's values: that of its XQSEND (R183). -/
def headType (nodes : List Node) (q : Nat) : Nat := ((nodes.find? fun n => n.id == q).map Node.ty).getD 6

/-- A source read as type t at element e (R165). -/
def Operand.read (o : Operand) (nodes : List Node) (env : Env) (t e : Nat) : Lane :=
  match o with
  | .val v => let x := v.raw env e; readAs t x.2 x.1
  | .imm i => readWord t (i.signExtend 64)
  | .immHi i => (i.setWidth 64) <<< 16
  | .slot x => readWord t x
  | .index => readIndex t e
  | .zero => 0
  | .head q => readAs t (headType nodes q) (laneIn env.heads q)

/-- Prior(e) in the lane form of the result type (R164). DESIGN CHOICE (log entry 88): a value of another type is read as the result type
under R165 and held as one. -/
def Node.priorAt (n : Node) (env : Env) (e : Nat) : Lane :=
  match n.prior with
  | none => 0
  | some v =>
    let x := v.raw env e
    if v.len ≤ e then 0 else if x.2 = n.rty then x.1 else holdAs n.rty (readAs n.rty x.2 x.1)

/-- The bit of a governing mask (R164): m0 is all ones. -/
def maskBit (m : Option Val) (env : Env) (e : Nat) : Bool :=
  match m with
  | none => true
  | some v => decide ((v.at env e).toNat % 2 = 1)

/-- A part of the pending graph: a leaf or a node. -/
inductive GraphPart where
  /-- A leaf. -/
  | leaf (l : Leaf)
  /-- A node. -/
  | node (n : Node)

/-- Its number in the order of appending and binding. -/
def GraphPart.num : GraphPart → Nat
  | .leaf l => l.seq
  | .node n => n.id

/-- Put a leaf among items of rising number. -/
def insertLeaf (l : Leaf) : List GraphPart → List GraphPart
  | [] => [.leaf l]
  | i :: t => if l.seq < i.num then .leaf l :: i :: t else i :: insertLeaf l t

/-- The graph in rising number. -/
def graphItems (a : Arch) : List GraphPart := a.leaves.foldl (fun r l => insertLeaf l r) (a.nodes.map GraphPart.node)

/-- What a set of values reaches (R140): nodes, leaf slots and capture regions. -/
structure Marks where
  /-- Numbers of nodes. -/
  nodes : List Nat
  /-- Leaf slots. -/
  slots : List Nat
  /-- Captured values that are read. -/
  caps : List Val

/-- Mark a value. -/
def markVal (m : Marks) (v : Val) : Marks :=
  match v.ref with
  | .res _ => m
  | .leaf s _ => { m with slots := addItem m.slots s }
  | .node i => { m with nodes := addItem m.nodes i }
  | .merged i j => { m with nodes := addItem (addItem m.nodes i) j }
  | .capt _ => if v.len = 0 ∨ m.caps.contains v then m else { m with caps := v :: m.caps }

/-- Mark a source. -/
def markOperand (m : Marks) (o : Operand) : Marks :=
  match o with
  | .val v => markVal m v
  | .head q => { m with nodes := addItem m.nodes q }
  | _ => m

/-- Mark what a node uses. -/
def markUses (m : Marks) (n : Node) : Marks :=
  let m1 := markOperand (markOperand (markOperand m n.a) n.b) n.c
  let m2 := ([n.mask, n.prior, n.below].filterMap id ++ n.more).foldl markVal m1
  match n.path with
  | none => m2
  | some p => markOperand { m2 with nodes := addItem m2.nodes p.split } p.sel

/-- One descent through the graph. -/
def markItem (m : Marks) (i : GraphPart) : Marks :=
  match i with
  | .node n => if m.nodes.contains n.id then markUses m n else m
  | .leaf l =>
    if m.slots.contains l.slot then
      (match l.lay with
       | .indexed v => markVal m v
       | _ => m)
    else m

/-- Descend as often as a queue can lead back up: a reader of a head needs a later XQSEND (R184). -/
def markFuel (items : List GraphPart) : Nat → Marks → Marks
  | 0, m => m
  | k + 1, m => markFuel items k (items.foldl markItem m)

/-- What a list of values reaches through the graph of a state (R140). -/
def reach (a : Arch) (vs : List Val) : Marks :=
  markFuel (graphItems a).reverse (1 + (a.nodes.filter fun n => n.eop == 0x72).length)
    (vs.foldl markVal { nodes := [], slots := [], caps := [] })

/-- Is a value PENDING (R140)? -/
def Val.pending (v : Val) : Bool :=
  match v.ref with
  | .leaf _ _ => true
  | .node _ => true
  | .merged _ _ => true
  | _ => false

/-- Is it RESIDENT? -/
def Val.resident (v : Val) : Bool :=
  match v.ref with
  | .res _ => true
  | _ => false

/-- The value of a vector register. -/
def vreg (a : Arch) (r : Reg) : Val := (a.v[r.toNat]'(r.isLt)).val

/-- The value of a mask register. -/
def mreg (a : Arch) (k : BitVec 3) : Val := (a.m[k.toNat]'(k.isLt)).val

/-- The governing mask that a field names (R189): none is m0. -/
def maskOf (a : Arch) (k : BitVec 3) : Option Val := if k = 0 then none else some (mreg a k)

/-- Registers by number: 0 to 31 are v0 to v31, 33 to 39 are m1 to m7 (R155). -/
def regNums : List Nat := List.range 32 ++ [33, 34, 35, 36, 37, 38, 39]

/-- The value of a register by number. -/
def regVal (a : Arch) (r : Nat) : Val :=
  if r < 32 then (a.v.toList.map VReg.val).getD r Val.empty else (a.m.toList.map VReg.val).getD (r - 32) Val.emptyMask

/-- Give a register by number a new value; its dirty bit is set (R394). -/
def setReg (a : Arch) (r : Nat) (v : Val) : Arch :=
  if r < 32 then { a with v := a.v.setIfInBounds r { val := v, dirty := true } }
  else { a with m := a.m.setIfInBounds (r - 32) { val := v, dirty := true } }

/-- The PENDING registers by number. -/
def pendingRegs (a : Arch) : List Nat := regNums.filter fun r => (regVal a r).pending

/-- Nodes that no PENDING register reaches are released, and leaf slots that none depends on are freed (R141, R145). -/
def tidy (a : Arch) : Arch :=
  let m := reach a ((pendingRegs a).map (regVal a))
  { a with nodes := a.nodes.filter (fun n => m.nodes.contains n.id), leaves := a.leaves.filter (fun l => m.slots.contains l.slot) }

/-- Give a register a new value and release what it alone kept. -/
def nameReg (a : Arch) (r : Nat) (v : Val) : Arch := tidy (setReg a r v)

/-- The address of element e of a stream, field f of a segment (R195); idx is the index read as S64. -/
def elemAddr (base : Word) (lay : Layout) (ty e f : Nat) (idx : Word) : Word :=
  let w := tyBytes ty
  match lay with
  | .unit => if tyBits ty < 8 then base + wd (e * tyBits ty / 8) else base + wd (e * w)
  | .strided st => base + wd e * st
  | .indexed _ => base + idx * wd w
  | .seg n => base + wd ((e * n + f) * w)
  | .shape r => base + r.offset e

/-- The index of an indexed stream at element e (R195). -/
def indexAt (lay : Layout) (env : Env) (e : Nat) : Word :=
  match lay with
  | .indexed v => readAs 3 v.ty (v.at env e)
  | _ => 0

/-- Bit position of element e inside its byte, for types narrower than a byte (R64, R68). -/
def bitPos (ty e : Nat) : Nat := e * tyBits ty % 8

/-- Lowest and highest offset of a box of a shape's dimensions: counts and strides. -/
def boxRange (dims : List (Nat × Int)) : Int × Int :=
  dims.foldl (fun r d =>
    let x : Int := (d.1 - 1 : Nat) * d.2
    if x < 0 then (r.1 + x, r.2) else (r.1, r.2 + x)) (0, 0)

/-- Union of two ranges. -/
def joinRange (a b : Int × Int) : Int × Int := (if b.1 < a.1 then b.1 else a.1, if a.2 < b.2 then b.2 else a.2)

/-- Lowest and highest offset of elements 0 to n − 1 of a shape, n ≥ 1: the boxes that lie below element n − 1 in the
lexicographic order, and that element's own row (R197). -/
def Shape.range (r : Shape) (n : Nat) : Int × Int :=
  let q := n - 1
  let d0 := q % r.n0
  let d1 := q / r.n0 % r.n1
  let d2 := q / (r.n0 * r.n1) % r.n2
  let d3 := q / (r.n0 * r.n1 * r.n2)
  let s0 := r.s0.toInt
  let s1 := r.s1.toInt
  let s2 := r.s2.toInt
  let s3 := r.s3.toInt
  let shift (x : Int) (p : Int × Int) : Int × Int := (p.1 + x, p.2 + x)
  let row := shift (d3 * s3 + d2 * s2 + d1 * s1) (boxRange [(d0 + 1, s0)])
  let b1 := if d1 = 0 then row else joinRange row (shift (d3 * s3 + d2 * s2) (boxRange [(r.n0, s0), (d1, s1)]))
  let b2 := if d2 = 0 then b1 else joinRange b1 (shift (d3 * s3) (boxRange [(r.n0, s0), (r.n1, s1), (d2, s2)]))
  if d3 = 0 then b2 else joinRange b2 (boxRange [(r.n0, s0), (r.n1, s1), (r.n2, s2), (d3, s3)])

/-- The bytes that a stream of n elements covers, from first to last (R149). -/
inductive Extent where
  /-- Nothing. -/
  | empty
  /-- The whole address space. -/
  | all
  /-- From lo to hi − 1. -/
  | bytes (lo hi : Int)
  deriving DecidableEq, Repr

/-- The extent of a stream (R149). DESIGN CHOICE (log entry 105): one of length 0 covers nothing, also where its addressing is indexed. -/
def extentOf (base : Word) (lay : Layout) (ty n : Nat) : Extent :=
  if n = 0 then .empty else
    let b : Int := base.toNat
    let w : Int := tyBytes ty
    match lay with
    | .unit => .bytes b (b + ((n * tyBits ty + 7) / 8 : Nat))
    | .strided st => let r := boxRange [(n, st.toInt)]; .bytes (b + r.1) (b + r.2 + w)
    | .indexed _ => .all
    | .seg k => .bytes b (b + (n * k : Nat) * w)
    | .shape r => let x := r.range n; .bytes (b + x.1) (b + x.2 + w)

/-- Do two extents overlap when judged by granules of g bytes? -/
def Extent.meets (g : Int) : Extent → Extent → Bool
  | .empty, _ => false
  | _, .empty => false
  | .all, _ => true
  | _, .all => true
  | .bytes a b, .bytes c d => decide (a / g ≤ (d - 1) / g) && decide (c / g ≤ (b - 1) / g)

/-- The extent of a leaf. -/
def Leaf.extent (l : Leaf) : Extent := extentOf l.base l.lay l.ty l.len

/-- PENDING registers that depend on a leaf for which a test holds (R149). -/
def dependents (a : Arch) (f : Leaf → Bool) : List Nat :=
  let hit := (a.leaves.filter f).map Leaf.slot
  if hit.isEmpty then []
  else (pendingRegs a).filter fun r => (reach a [regVal a r]).slots.any hit.contains

end Sys2Proof.Machine
end

