-- ==== Sys2Proof/Machine/Elem.lean ====
section
/-! DEFINITION. Machine/Elem.lean: what an element instruction delivers for one element (R168 to R179, R183), the forms that
a WEAVE accepts (R38 to R41, R168, R173, R178 to R183), and the units it occupies (R167). -/

namespace Sys2Proof.Machine

open Sys2Proof

/-- The quotient and remainder of R171: an element division by zero delivers all ones and sets DZ. -/
def elemDiv (t : Nat) (rem : Bool) (a b : Int) : Lane × BitVec 6 :=
  if b = 0 then (wrapInt t (-1), fDZ) else (wrapInt t (if rem then a.tmod b else a.tdiv b), 0)

/-- Zero bits above the highest 1 bit of a w-bit pattern (R169). -/
def elemClz (w n : Nat) : Nat := if n = 0 then w else w - 1 - Nat.log2 n

/-- The bits of a natural number that are 1, among w (R169). -/
def elemPop : Nat → Nat → Nat
  | 0, _ => 0
  | k + 1, n => n % 2 + elemPop k (n / 2)

/-- The integer instructions (R169 to R172): sources as patterns read as T, srcC of EMACW as T2. Of R433's block, EMULW, EMACW and EADD form the
exact sum, and ENSHR delivers the byte, with FXSAT where it clamps. -/
def intEffect (n : Node) (a b c : Lane) : Lane × BitVec 6 :=
  let t := n.ty
  let w := tyBits t
  let x := patInt t a
  let y := patInt t b
  let z := patInt t c
  let ux := a.toNat % 2 ^ w
  let uy := b.toNat % 2 ^ w
  let k := uy % w
  let plain (i : Int) : Lane × BitVec 6 := (wrapInt t i, 0)
  let logic (v : Lane) : Lane × BitVec 6 := (holdAs t v, 0)
  match n.eop with
  | 0x01 => plain (x + y)
  | 0x02 => plain (x - y)
  | 0x03 => plain (x * y)
  | 0x04 => plain (x * y / (2 ^ w : Nat))
  | 0x05 => (wrapInt n.ty2 (x * y), 0)
  | 0x06 => (wrapInt n.ty2 (patInt n.ty2 c + x * y), 0)
  | 0x07 => elemDiv t false x y
  | 0x08 => elemDiv t true x y
  | 0x09 => logic (a &&& b)
  | 0x0A => logic (a ||| b)
  | 0x0B => logic (a ^^^ b)
  | 0x0C => logic (a &&& ~~~b)
  | 0x0D => plain ((ux * 2 ^ k : Nat) : Int)
  | 0x0E => plain ((ux / 2 ^ k : Nat) : Int)
  | 0x0F => plain ((if decide (2 ^ (w - 1) ≤ ux) then (ux : Int) - (2 ^ w : Nat) else ux) / (2 ^ k : Nat))
  | 0x10 => plain (if y < x then y else x)
  | 0x11 => plain (if x < y then y else x)
  | 0x12 => plain x.natAbs
  | 0x13 => satInt t (x + y)
  | 0x14 => satInt t (x - y)
  | 0x15 =>
    let r := roundFx x (uy % 64) n.rnd
    if n.sat then satInt n.ty2 r else (wrapInt n.ty2 r, 0)
  | 0x16 =>
    let m := if x < y then y else x
    let r := if z < m then z else m
    (wrapInt t r, if r = x then 0 else fSAT)
  | 0x17 => plain (elemPop w ux : Nat)
  | _ => plain (elemClz w ux : Nat)

/-- The floating-point instructions (R174 to R177): sources as F32 patterns, or as an integer for ITOF. -/
def fpEffect (n : Node) (a b c : Lane) : Lane × BitVec 6 :=
  let t := n.ty
  let x : BitVec 32 := a.setWidth 32
  let y : BitVec 32 := b.setWidth 32
  let z : BitVec 32 := c.setWidth 32
  let out (t : Nat) (r : BitVec 32 × BitVec 6) : Lane × BitVec 6 := ((fit t r.1).setWidth 64, r.2)
  match n.eop with
  | 0x30 => out t (fpAdd t n.rnd n.ftz x y)
  | 0x31 => out t (fpSub t n.rnd n.ftz x y)
  | 0x32 => out t (fpMul t n.rnd n.ftz x y)
  | 0x33 => out t (fpFma t n.rnd n.ftz x y z)
  | 0x34 => out t (fpDiv t n.rnd n.ftz x y)
  | 0x35 => out t (fpSqrt t n.rnd n.ftz x)
  | 0x36 => out t (fpMinMax t n.ftz false x y)
  | 0x37 => out t (fpMinMax t n.ftz true x y)
  | 0x38 => out t (fpRcp t n.rnd n.ftz x)
  | 0x39 => out t (fpExp2 t n.rnd n.ftz x)
  | 0x3A => out t (fpLog2 t n.rnd n.ftz x)
  | 0x3B => out t (x &&& 0x7FFFFFFF, 0)
  | 0x3C => out t (x ^^^ 0x80000000, 0)
  | 0x3D => out n.ty2 (fpConvert t n.ty2 n.rnd n.sat n.ftz x)
  | 0x3E => fpToInt t n.ty2 n.rnd n.sat n.ftz x
  | _ => out n.ty2 (intToFp n.ty2 n.rnd n.ftz (patInt t a))

/-- The condition of ECMP on integers (R178). -/
def intCond (cond : Nat) (x y : Int) : Bool :=
  match cond with
  | 0 => decide (x = y)
  | 1 => decide (x ≠ y)
  | 2 => decide (x < y)
  | _ => decide (x ≤ y)

/-- What a node delivers for an element at which it acts: sources read under R165, e the element index. SPLIT, MERGE and
XQSEND deliver nothing. -/
def Node.effect (n : Node) (e : Nat) (a b c : Lane) : Lane × BitVec 6 :=
  if n.eop < 0x30 then intEffect n a b c
  else if n.eop < 0x60 then fpEffect n a b c
  else match n.eop with
    | 0x60 => (wd (b2n (intCond (n.imm.toNat % 8) (patInt n.ty a) (patInt n.ty b))), 0)
    | 0x61 => let r := fpCmp n.ty n.ftz (n.imm.toNat % 8) (a.setWidth 32) (b.setWidth 32); (wd (b2n r.1), r.2)
    | 0x62 => (holdAs n.ty (if c.toNat % 2 = 1 then a else b), 0)
    | 0x63 => if tyInt n.ty then (wrapInt n.ty2 (patInt n.ty a), 0) else (holdAs n.ty a, 0)
    | 0x64 => (wrapInt n.ty (patInt n.ty a + e * patInt n.ty b), 0)
    | 0x73 => (holdAs n.ty a, 0)
    | _ => (0, 0)

/-- The type that source c is read as: T2 for EMACW, mask for ESEL, else T. -/
def typeC (eop ty ty2 : Nat) : Nat := if eop = 0x06 then ty2 else if eop = 0x62 then 14 else ty

/-- The types of a set: I, F, G, F with E2M1, all, or the narrow-enough integers of EMULW (R168, R173). -/
inductive TySet where
  /-- Integer types. -/
  | int
  /-- Integer types and mask. -/
  | intMask
  /-- Integer types of at most 32 bits. -/
  | int32
  /-- Signed integer types. -/
  | signed
  /-- F32, F16, BF16, E4M3, E5M2. -/
  | fp
  /-- F32, F16, BF16. -/
  | fpBig
  /-- Floating-point types with E2M1. -/
  | fpAll
  /-- Integer types and F. -/
  | intFp
  /-- Every type. -/
  | any
  /-- Mask and N32. -/
  | split
  /-- Mask. -/
  | mask

/-- Is a type code in a set? -/
def TySet.has (s : TySet) (t : Nat) : Bool :=
  match s with
  | .int => decide (t < 8)
  | .intMask => decide (t < 8) || t == 14
  | .int32 => decide (t < 8) && t != 3 && t != 7
  | .signed => decide (t < 4)
  | .fp => decide (8 ≤ t) && decide (t ≤ 12)
  | .fpBig => decide (8 ≤ t) && decide (t ≤ 10)
  | .fpAll => decide (8 ≤ t) && decide (t ≤ 13)
  | .intFp => decide (t ≤ 12)
  | .any => decide (t ≤ 14)
  | .split => t == 14 || t == 6
  | .mask => t == 14

/-- How an opcode uses its fields: operands, first types, rounding (0 none, 1 floating point, 2 fixed point), and the sat
values it takes (0 only 00, 1 only 01, 2 either). -/
structure Form where
  /-- dst. -/
  d : Bool
  /-- srcA. -/
  a : Bool
  /-- srcB. -/
  b : Bool
  /-- srcC. -/
  c : Bool
  /-- Types. -/
  types : TySet
  /-- Rounding. -/
  rnd : Nat
  /-- Saturation. -/
  sat : Nat

/-- The form of a two-source opcode. -/
def form2 (ts : TySet) (rnd sat : Nat) : Option Form := some ⟨true, true, true, false, ts, rnd, sat⟩
/-- The form of a one-source opcode. -/
def form1 (ts : TySet) (rnd sat : Nat) : Option Form := some ⟨true, true, false, false, ts, rnd, sat⟩
/-- The form of a three-source opcode. -/
def form3 (ts : TySet) (rnd sat : Nat) : Option Form := some ⟨true, true, true, true, ts, rnd, sat⟩

/-- The forms of the element opcodes (R168, R173, R178 to R183); none is unassigned (R42). -/
def formOf (eop : Nat) : Option Form :=
  match eop with
  | 0x01 | 0x02 | 0x03 | 0x04 | 0x07 | 0x08 => form2 .int 0 0
  | 0x05 => form2 .int32 0 0
  | 0x06 => form3 .int32 0 0
  | 0x09 | 0x0A | 0x0B | 0x0C => form2 .intMask 0 0
  | 0x0D | 0x0E | 0x0F | 0x10 | 0x11 => form2 .int 0 0
  | 0x12 => form1 .signed 0 0
  | 0x13 | 0x14 => form2 .int 0 1
  | 0x15 => form2 .int 2 2
  | 0x16 => form3 .int 0 1
  | 0x17 | 0x18 => form1 .int 0 0
  | 0x30 | 0x31 | 0x32 => form2 .fp 1 0
  | 0x33 => form3 .fp 1 0
  | 0x34 => form2 .fpBig 1 0
  | 0x35 => form1 .fpBig 1 0
  | 0x36 | 0x37 => form2 .fp 0 0
  | 0x38 | 0x39 | 0x3A => form1 .fpBig 1 0
  | 0x3B | 0x3C => form1 .fp 0 0
  | 0x3D | 0x3E => form1 .fpAll 1 2
  | 0x3F => form1 .int 1 0
  | 0x60 => form2 .int 0 0
  | 0x61 => form2 .fp 0 0
  | 0x62 => form3 .any 0 0
  | 0x63 => form1 .any 0 0
  | 0x64 => form2 .int 0 0
  | 0x70 => some ⟨false, true, false, false, .split, 0, 0⟩
  | 0x71 => some ⟨false, false, false, false, .mask, 0, 0⟩
  | 0x72 => some ⟨false, true, true, false, .intFp, 0, 0⟩
  | 0x73 => some ⟨true, false, false, false, .intFp, 0, 0⟩
  | _ => none

/-- Is type2 right for an opcode and its type (R40, R168, R170, R173, R179)? 15 is none. -/
def type2Ok (eop t t2 : Nat) : Bool :=
  match eop with
  | 0x05 | 0x06 => decide (t2 < 8) && (tySigned t == tySigned t2) && decide (2 * tyBits t ≤ tyBits t2)
  | 0x15 => t2 == 15 || (decide (t2 < 8) && decide (tyBits t2 ≤ tyBits t))
  | 0x3D => t2 == 15 || TySet.fpAll.has t2
  | 0x3E => decide (t2 < 8)
  | 0x3F => TySet.fpAll.has t2
  | 0x63 => t2 == 15 || (decide (t < 8) && decide (t2 < 8))
  | _ => t2 == 15

/-- The type of a node's result. -/
def resultType (eop t t2 : Nat) : Nat :=
  match eop with
  | 0x05 | 0x06 | 0x15 | 0x3D | 0x3E | 0x3F | 0x63 => t2
  | 0x60 | 0x61 => 14
  | _ => t

/-- Unit class of an opcode (0 FMA, 1 ALU, 2 SFU, 3 CVT, 4 queue port, 5 collector), its occupancy and latency (R167). -/
def unitOf (eop : Nat) : Nat × Nat × Nat :=
  match eop with
  | 0x03 | 0x04 | 0x05 | 0x06 => (0, 1, 3)
  | 0x30 | 0x31 | 0x32 | 0x33 => (0, 1, 4)
  | 0x07 | 0x08 | 0x34 | 0x35 => (2, 8, 12)
  | 0x38 | 0x39 | 0x3A => (2, 2, 6)
  | 0x0D | 0x0E | 0x0F | 0x15 | 0x3D | 0x3E | 0x3F => (3, 1, 2)
  | 0x72 | 0x73 => (4, 1, 1)
  | 0x71 => (5, 0, 0)
  | _ => (1, 1, 1)

/-- The sum of two occupancies. -/
def Occ.add (x y : Occ) : Occ :=
  { fma := x.fma + y.fma, alu := x.alu + y.alu, sfu := x.sfu + y.sfu, cvt := x.cvt + y.cvt, xq := x.xq + y.xq }

/-- No occupancy. -/
def Occ.zero : Occ := { fma := 0, alu := 0, sfu := 0, cvt := 0, xq := 0 }

/-- The occupancy of one element on a node: doubled where a type has a 64-bit lane form (R167). -/
def Node.occ (n : Node) : Occ :=
  let u := unitOf n.eop
  let k := if tyWide n.ty || tyWide n.ty2 then 2 * u.2.1 else u.2.1
  let z := Occ.zero
  match u.1 with
  | 0 => { z with fma := k }
  | 1 => { z with alu := k }
  | 2 => { z with sfu := k }
  | 3 => { z with cvt := k }
  | 4 => { z with xq := k }
  | _ => z

end Sys2Proof.Machine
end

