-- ==== Sys2Proof/Machine/Weave.lean ====
section
/-! DEFINITION. Machine/Weave.lean: fetching and checking a weave block (R35 to R44, R186, R456), appending its nodes (R142,
R144, R180, R181), and forcing passes (R145 to R153, R220). -/

namespace Sys2Proof.Machine

open Sys2Proof

/-- Field of w bits at bit i of an element word (R35). -/
def ef (x i w : Nat) : Nat := x / 2 ^ i % 2 ^ w

/-- Is a source code right in a position read as type t, judged from the word and the header's valid bits (R38, R163)? -/
def srcOk (valid : Nat) (ownImm : Bool) (t code : Nat) : Bool :=
  if code < 48 then true
  else if code = 48 then !ownImm && !tyFloat t
  else if code = 49 then !ownImm && t == 8
  else if code < 58 then bitAt valid (code - 50)
  else decide (code ≤ 60)

/-- The source codes that a word uses. -/
def usedSrcs (f : Form) (x : Nat) : List Nat :=
  (if f.a then [ef x 44 6] else []) ++ (if f.b then [ef x 38 6] else []) ++ (if f.c then [ef x 32 6] else [])

/-- Is the imm16 field right (R162, R178, R180, R183)? -/
def immOk (eop t imm : Nat) (used : Bool) : Bool :=
  match eop with
  | 0x60 => decide (imm ≤ 3)
  | 0x61 => decide (imm ≤ 4)
  | 0x70 => decide (imm < 32768) && (t != 14 || decide (imm % 32 = 0))
  | 0x71 | 0x72 | 0x73 => imm == 0
  | _ => imm == 0 || used

/-- Is a node word right, judged from the word and the header alone (R38 to R43, R186)? -/
def nodeOk (valid x : Nat) : Bool :=
  let eop := ef x 56 8
  match formOf eop with
  | none => false
  | some f =>
    let t := ef x 28 4
    let t2 := ef x 24 4
    let d := ef x 50 6
    let rnd := ef x 18 3
    let sat := ef x 16 2
    let own := eop == 0x60 || eop == 0x61 || eop == 0x70
    let seed := eop == 0x72
    let srcs := usedSrcs f x
    (if f.d then decide (d < 48) || (d == 59 && eop != 0x73) else d == 59) &&
    (if f.a then srcOk valid own t (ef x 44 6) else ef x 44 6 == 59) &&
    (if seed then ef x 38 6 == 59 || (ef x 38 6 == 50 && bitAt valid 0)
     else if f.b then srcOk valid own t (ef x 38 6) else ef x 38 6 == 59) &&
    (if f.c then srcOk valid own (typeC eop t t2) (ef x 32 6) else ef x 32 6 == 59) &&
    f.types.has t && type2Ok eop t t2 &&
    (rnd == 7 || (f.rnd == 1 && decide (rnd ≤ 4)) || (f.rnd == 2 && decide (rnd ≤ 3))) &&
    (if f.sat = 2 then decide (sat ≤ 1) else sat == f.sat) &&
    (decide (eop < 0x70) || decide (0x72 ≤ eop) || ef x 21 3 == 0) &&
    immOk eop t (ef x 0 16) (srcs.contains 48 || srcs.contains 49)

/-- Is a header right (R36, R43)? -/
def headerOk (x : Nat) : Bool :=
  ef x 56 8 == 0 && ef x 48 3 == 0 && (List.range 8).all fun k => bitAt x k || ef x (43 - 5 * k) 5 == 0

/-- The path of the k-th node of a split region (R180): mask selector, lengths. -/
def pathOf (isMask : Bool) (n0 n1 n2 k : Nat) : Nat :=
  if k < n0 then 0 else if isMask || decide (k < n0 + n1) then 1 else if k < n0 + n1 + n2 then 2 else 3

/-- Do the path lengths of a region of n nodes fit (R180)? -/
def pathsFit (isMask : Bool) (n0 n1 n2 n : Nat) : Bool :=
  if isMask then n2 == 0 && n0 + n1 == n else decide (n0 + n1 + n2 ≤ n)

/-- An open split region during a scan: its SPLIT's position and word, nodes so far, the wefts written before it, on the
present path, and on any path. -/
structure Region where
  /-- Position of the SPLIT. -/
  pos : Nat
  /-- Its word. -/
  word : Nat
  /-- Nodes met. -/
  k : Nat
  /-- Wefts written before the SPLIT. -/
  pre : List Nat
  /-- Wefts written on the present path. -/
  cur : List Nat
  /-- Wefts written on any path. -/
  all : List Nat

/-- The path of a region's node k. -/
def Region.path (r : Region) (k : Nat) : Nat :=
  pathOf (ef r.word 28 4 == 14) (ef r.word 10 5) (ef r.word 5 5) (ef r.word 0 5) k

/-- A scan of a block's nodes: defects by position, the open region, wefts written outside regions, whether an XQSEND has
been met, and readers of the head that still need one. -/
structure Scan where
  /-- Positions of defects. -/
  bad : List Nat
  /-- The open region. -/
  region : Option Region
  /-- Wefts written. -/
  wefts : List Nat
  /-- An XQSEND has been met. -/
  sent : Bool
  /-- Positions of readers of the head before any XQSEND. -/
  readers : List Nat

/-- A scan before any node. -/
def Scan.start : Scan := { bad := [], region := none, wefts := [], sent := false, readers := [] }

/-- The scan takes one node word at a position (R38, R43, R180 to R183, R456). DESIGN CHOICE (log entry 91): a SPLIT inside a region is
a defect of its own and counts as a node of the region, which the next MERGE closes. -/
def Scan.node (sc : Scan) (valid pos x : Nat) : Scan :=
  let eop := ef x 56 8
  let srcs := match formOf eop with
    | none => []
    | some f => usedSrcs f x
  let reg := match sc.region with
    | none => none
    | some r =>
      if eop = 0x71 then some r
      else if r.k ≠ 0 ∧ r.path r.k ≠ r.path (r.k - 1) then some { r with k := r.k + 1, cur := [] }
      else some { r with k := r.k + 1 }
  let known := match reg with
    | none => sc.wefts
    | some r => r.pre ++ r.cur
  let reads := srcs.contains 60 || eop == 0x73
  let word := !nodeOk valid x
  let weft := srcs.any fun c => decide (32 ≤ c) && decide (c < 48) && !known.contains c
  let head := reads && (sc.sent || reg.isSome || eop == 0x72)
  let second := eop == 0x72 && (sc.sent || reg.isSome)
  let nest := (eop == 0x70 && sc.region.isSome) || (eop == 0x71 && sc.region.isNone)
  let fits := match sc.region with
    | none => []
    | some r => if eop = 0x71 ∧ !pathsFit (ef r.word 28 4 == 14) (ef r.word 10 5) (ef r.word 5 5) (ef r.word 0 5) r.k
        then [r.pos] else []
  let d := ef x 50 6
  let wr : List Nat := if 32 ≤ d ∧ d < 48 then [d] else []
  { bad := sc.bad ++ (if word || weft || head || second || nest then [pos] else []) ++ fits,
    region := if eop = 0x71 then none else match reg with
      | some r => some { r with cur := wr ++ r.cur, all := wr ++ r.all }
      | none => if eop = 0x70 then some { pos := pos, word := x, k := 0, pre := sc.wefts, cur := [], all := [] } else none,
    wefts := if eop = 0x71 then (match reg with | some r => r.all ++ r.pre | none => sc.wefts)
      else if reg.isNone then wr ++ sc.wefts else sc.wefts,
    sent := sc.sent || eop == 0x72,
    readers := if eop = 0x72 then [] else if reads && !head then pos :: sc.readers else sc.readers }

/-- The scan takes node words from a position on. -/
def Scan.nodes (sc : Scan) (valid pos : Nat) : List Nat → Scan
  | [] => sc
  | x :: t => (sc.node valid pos x).nodes valid (pos + 1) t

/-- The least of a list of positions. -/
def leastPos : List Nat → Option Nat
  | [] => none
  | p :: t => match leastPos t with
    | none => some p
    | some q => some (if p < q then p else q)

/-- The defect of a block that is raised (R456): from the header and the words after it that were fetched; a block fetched
whole holds count + 1 nodes and the STOP. -/
def blockDefect (header : Nat) (words : List Nat) : Option Nat :=
  if !headerOk header then some 0 else
    let n := ef header 51 5 + 1
    let sc := Scan.start.nodes (header % 256) 1 (words.take n)
    let whole := decide (n ≤ words.length)
    let late := if whole then (match sc.region with | some r => [r.pos] | none => []) ++ sc.readers else []
    let stop := match words.drop n with
      | [] => []
      | x :: _ => if x = 0xFF00000000000000 then [] else [n + 1]
    leastPos (sc.bad ++ late ++ stop)

/-- The 8-byte word of code at a place, as a fetch sees it: where a store has changed it since this core last fetched it,
the old word or the new one (R49); a word that it has not fetched itself is seen new (DESIGN CHOICE, log entry 136). -/
def codeWord (s : State) (k : Nat) : State × Word :=
  let i := k / 8
  let now := wd (leNat (memByte s) (8 * i) 8)
  match s.c.icache.find? fun e => e.1 == i with
  | some (_, old) =>
    if old = now then (s, now)
    else if Config.oldCode s.free then (useFree s, old)
    else ({ useFree s with c := { s.c with icache := spPut s.c.icache i now } }, now)
  | none => ({ s with c := { s.c with icache := spPut s.c.icache i now } }, now)

/-- A fetch at an address: the 8-byte word that holds it, or a fault (R44, R46, R119, R346). -/
def fetchWord (s : State) (va : Word) : State × Except Flt Word :=
  match translate s (who s) .fetch va with
  | (s1, .error f) => (s1, .error f)
  | (s1, .ok k) =>
    if isDevice k then (s1, .error (flt 3 va))
    else if isPoisoned s1 k then (s1, .error (flt 8 va))
    else let r := codeWord s1 k; (r.1, .ok r.2)

/-- Fetch n words of a block from an address upward: those before the first fault, and that fault. -/
def fetchWords (s : State) (va : Word) : Nat → State × List Nat × Option Flt
  | 0 => (s, [], none)
  | n + 1 => match fetchWord s va with
    | (s1, .error f) => (s1, [], some f)
    | (s1, .ok w) => let r := fetchWords s1 (va + 8) n; (r.1, w.toNat :: r.2.1, r.2.2)

/-- TRAPBLAME (R155). -/
def blameWord (kind pos pc : Nat) : Word := wd (kind * 2 ^ 60 + pos * 2 ^ 54 + pc % 2 ^ 52 / 4 * 4)

/-- The same of a value's blame. -/
def Blame.word (b : Blame) : Word := blameWord b.kind b.pos b.pc

/-- The trap of an illegal block or of a fault on fetching a word of it (R43, R44, R155): KIND 4. -/
def blockTrap (s : State) (cause pos : Nat) (a : Word) : State :=
  takeTrap s { cause := cause, addr := a, blame := blameWord 4 pos s.t.a.pc, stream := 0 } s.t.a.pc false false false

/-- The region that is open while a block is appended: its SPLIT's number, selector and word, the nodes met, and of each register and weft that a
path has written what it named before the SPLIT and what its last writer in block order gives. -/
structure Fork where
  /-- The SPLIT's number. -/
  split : Nat
  /-- Its selector. -/
  sel : Operand
  /-- Its word. -/
  word : Nat
  /-- Nodes met. -/
  k : Nat
  /-- Values before the SPLIT, by code. -/
  pre : List (Nat × Option Val)
  /-- Values of the last writers, by code. -/
  last : List (Nat × Val)

/-- The path of a region's node k (R180). -/
def Fork.path (r : Fork) (k : Nat) : Nat :=
  pathOf (ef r.word 28 4 == 14) (ef r.word 10 5) (ef r.word 5 5) (ef r.word 0 5) k

/-- The appending of a block: the state so far, the wefts, and the open region. Inside a region both are as an element of the present path sees
them (R181). -/
structure Build where
  /-- Checkpointed state. -/
  a : Arch
  /-- Wefts by code. -/
  wefts : List (Nat × Val)
  /-- The region. -/
  region : Option Fork

/-- The value that an operand code names now (R142): a register or a weft. -/
def Build.value (b : Build) (code : Nat) : Option Val :=
  if code < 32 then some (regVal b.a code) else (b.wefts.find? fun e => e.1 == code).map Prod.snd

/-- A source operand from its code (R38). A broadcast slot whose header names x0 broadcasts zero (R26). -/
def Build.operand (b : Build) (header : Nat) (send : Nat) (imm : BitVec 16) (code : Nat) : Operand :=
  if code < 48 then .val ((b.value code).getD Val.empty)
  else if code = 48 then .imm imm
  else if code = 49 then .immHi imm
  else if code < 58 then
    (let r := ef header (43 - 5 * (code - 50)) 5
     .slot (if r = 0 then 0 else b.a.x.toList.getD r 0))
  else if code = 58 then .index
  else if code = 60 then .head send
  else .zero

/-- A register or weft names a value. -/
def Build.name (b : Build) (code : Nat) (v : Val) : Build :=
  if code < 32 then { b with a := setReg b.a code v }
  else { b with wefts := (code, v) :: b.wefts.filter fun e => e.1 != code }

/-- A path begins: what earlier paths have written is as it was before the SPLIT (R181). -/
def Build.restore (b : Build) (r : Fork) : Build :=
  r.pre.foldl (fun b e => match e.2 with
    | some v => b.name e.1 v
    | none => { b with wefts := b.wefts.filter fun w => w.1 != e.1 }) b

/-- At a MERGE each register and weft that a path wrote becomes PENDING on it (R144, R181). DESIGN CHOICE (log entry 90): where two
paths have written it with different result types it has the type of the last writer in block order, and the other path's elements
are read as that type. -/
def Build.collect (b : Build) (r : Fork) (merge pos pc : Nat) : Build :=
  r.last.foldl (fun b e =>
    match e.2 with
    | { ref := .node i, len := l, ty := t, blame := _ } =>
      b.name e.1 { ref := .merged merge i, len := l, ty := t, blame := { kind := 3, pos := pos, pc := pc } }
    | _ => b) { b with region := none }

/-- A node of the region has written a register or weft, which named `old` on its path. -/
def Fork.wrote (r : Fork) (code : Nat) (old : Option Val) (v : Val) : Fork :=
  { r with pre := if r.pre.any fun e => e.1 == code then r.pre else r.pre ++ [(code, old)],
           last := (r.last.filter fun e => e.1 != code) ++ [(code, v)] }

/-- Append the node of one word (R142, R144): pos is its index in the block, send the number of the block's XQSEND. -/
def Build.append (b0 : Build) (header send pos : Nat) (x : Nat) : Build :=
  let eop := ef x 56 8
  let b := match b0.region with
    | none => b0
    | some r => if eop ≠ 0x71 ∧ r.k ≠ 0 ∧ r.path r.k ≠ r.path (r.k - 1) then b0.restore r else b0
  let t := ef x 28 4
  let t2 := if ef x 24 4 = 15 then t else ef x 24 4
  let imm := BitVec.ofNat 16 (ef x 0 16)
  let src (i : Nat) : Operand := b.operand header send imm (ef x i 6)
  let d := ef x 50 6
  let k := BitVec.ofNat 3 (ef x 21 3)
  let rnd := ef x 18 3
  let path : Option PathCond := b.region.map fun r =>
    { split := r.split, sel := r.sel, isMask := ef r.word 28 4 == 14, path := r.path r.k }
  let below : Option Val := b.region.bind fun r => ((r.last.find? fun e => e.1 == d).map Prod.snd).or (b.value d)
  let n : Node :=
    { id := b.a.nextId, eop := eop, ty := t, ty2 := t2, rty := resultType eop t t2,
      rnd := if rnd ≠ 7 then rnd else if eop = 0x15 then b.a.fxrm.toNat else b.a.fctl.toNat % 8,
      sat := ef x 16 2 == 1, ftz := b.a.fctl.getLsbD 3, imm := imm, len := b.a.vlLen, mask := maskOf b.a k,
      path := if eop = 0x71 then none else path, a := if eop = 0x73 then .head send else src 44, b := src 38, c := src 32,
      prior := if d < 48 ∧ k ≠ 0 then b.value d else none, below := if d < 48 then below else none,
      more := if eop = 0x71 then (b.region.map fun r => r.last.map Prod.snd).getD [] else [], wpc := b.a.pc, pos := pos }
  let v : Val := { ref := .node n.id, len := n.len, ty := n.rty, blame := { kind := 3, pos := pos, pc := n.wpc } }
  let b1 := { b with a := { b.a with nodes := b.a.nodes ++ [n], nextId := b.a.nextId + 1 },
                     region := b.region.map fun r =>
                       let r1 := if d < 48 then r.wrote d (b.value d) v else r
                       { r1 with k := r1.k + 1 } }
  let b2 := if d < 48 then b1.name d v else b1
  if eop = 0x70 then { b2 with region := some { split := n.id, sel := n.a, word := x, k := 0, pre := [], last := [] } }
  else if eop = 0x71 then (match b2.region with
    | none => b2
    | some r => (b2.restore r).collect r n.id pos n.wpc)
  else b2

/-- Append words from an index on. -/
def Build.appendAll (b : Build) (header send pos : Nat) : List Nat → Build
  | [] => b
  | x :: t => (b.append header send pos x).appendAll header send (pos + 1) t

/-- The index of the XQSEND among node words; 0 where there is none. -/
def sendIndex : List Nat → Nat
  | [] => 0
  | x :: t => if ef x 56 8 = 0x72 then 0 else 1 + sendIndex t

/-- Append a whole block (R144); nodes that no register can reach are released at once (R145). -/
def appendBlock (a : Arch) (header : Nat) (words : List Nat) : Arch :=
  tidy ({ a := a, wefts := [], region := none : Build }.appendAll header
    (a.nextId + sendIndex words) 0 words).a

/-- Bytes of a capture region (R151). -/
def regionSize (v : Val) : Nat := ((v.len * tyBits v.ty + 7) / 8 + 4095) / 4096 * 4096

/-- Put a region in order of its base. -/
def insertRegion (r : Nat × Nat) : List (Nat × Nat) → List (Nat × Nat)
  | [] => [r]
  | x :: t => if r.1 < x.1 then r :: x :: t else x :: insertRegion r t

/-- Is no pass to be resumed (R219, R220)? -/
def fresh (a : Arch) : Bool := a.vrs.toList.all (· == 0)

/-- What a stopped pass has kept for the next forcing instruction, which resumes it where VRS says so (R156, R220). -/
def resumed (a : Arch) : Option Saved := if fresh a then none else a.saved

/-- The nodes whose values earlier passes of the forcing instruction have captured (R146, R220). -/
def liveCuts (a : Arch) : List (Nat × Word × Nat) :=
  match resumed a with
  | none => a.inner
  | some s => s.cuts

/-- Capture regions in use: those that registers name (R151), those of intermediate values (R146; log entry 35), and those that a pass which
is to be resumed has begun to fill (R156). -/
def usedRegions (a : Arch) : List (Nat × Nat) :=
  let named := (regNums.map (regVal a)).filterMap fun v => match v.ref with
    | .capt b => some (b.toNat, regionSize v)
    | _ => none
  let kept := (liveCuts a ++ ((resumed a).map Saved.regions).getD []).map fun r => (r.2.1.toNat, r.2.2)
  ((named ++ kept).filter fun r => r.2 != 0).foldl (fun l r => insertRegion r l) []

/-- The value that node n delivers, blamed on its word (R142, R155). -/
def Node.val (n : Node) : Val :=
  { ref := .node n.id, len := n.len, ty := n.rty, blame := { kind := 3, pos := n.pos, pc := n.wpc } }

/-- The value that a capture takes: a register's, or from 64 on that of the node numbered 64 less (R146). -/
def capVal (a : Arch) (r : Nat) : Val :=
  if r < 64 then regVal a r else ((a.nodes.find? fun n => n.id + 64 == r).map Node.val).getD Val.empty

/-- The first place from an address that is free for n bytes (first fit: the spec leaves the placement open). -/
def firstFit (n : Nat) : List (Nat × Nat) → Nat → Nat
  | [], p => p
  | (b, k) :: t, p => if p + n ≤ b then p else firstFit n t (Nat.max p (b + k))

/-- Places for captures (R151, R153): none where the area cannot hold them. -/
def allotAll (a : Arch) (used : List (Nat × Nat)) : List Nat → Option (List (Nat × Word × Nat))
  | [] => some []
  | r :: t =>
    let n := regionSize (capVal a r)
    match ((resumed a).map Saved.regions).getD [] |>.find? fun x => x.1 == r && x.2.2 == n && decide (n ≠ 0) with
    | some x => (allotAll a used t).map (x :: ·)
    | none =>
      let p := if n = 0 then a.capBase.toNat else firstFit n used a.capBase.toNat
      if n ≠ 0 ∧ a.capBase.toNat + a.capSize.toNat < p + n then none
      else (allotAll a (if n = 0 then used else insertRegion (p, n) used) t).map ((r, wd p, n) :: ·)

/-- The capture sinks with their places (R149, R155). -/
def captureSinks (a : Arch) (l : List (Nat × Word × Nat)) : List Sink :=
  l.map fun x => let v := capVal a x.1
    { kind := .capture x.2.1 x.1, srcs := [v], len := v.len, mask := none, blame := v.blame }

/-- The values that a sink reads. -/
def Sink.vals (k : Sink) : List Val :=
  k.srcs ++ [k.mask].filterMap id ++ (match k.kind with
    | .store _ (.indexed v) => [v]
    | .scatter _ _ v => [v]
    | _ => [])

/-- Nothing kept. -/
def Saved.empty : Saved := { acc := [], idx := 0, heads := [], lanes := [], regions := [], cuts := [] }

/-- The block of a node, by the number of the block's first node. -/
def Node.block (n : Node) : Nat := n.id - n.pos

/-- The oldest blocks that one pass can map together: at most 32 nodes, and one block that uses the queue (R146, R185). -/
def firstBlocks (ns : List Node) : List Nat → Nat → Bool → List Nat
  | [], _, _ => []
  | b :: t, n, q =>
    let l := ns.filter fun x => x.block == b
    let xq := l.any fun x => x.eop == 0x72
    if 32 < n + l.length ∨ (q && xq) = true then [] else b :: firstBlocks ns t (n + l.length) (q || xq)

/-- Weave overflow (R146, R185): where the nodes that sinks need do not fit one pass, the nodes, at most 4, whose values an earlier pass
captures: of the oldest blocks that fit a pass, those whose values the sinks or later blocks read. -/
def overflowCut (a : Arch) (sinks : List Sink) : List Nat :=
  let vals := (sinks.map Sink.vals).flatten
  let m := reach a vals
  let ns := a.nodes.filter fun n => m.nodes.contains n.id
  let bs := firstBlocks ns (ns.map Node.block).eraseDups 0 false
  let later := ns.filter fun n => !bs.contains n.block
  if later.isEmpty then [] else
    let idx := a.leaves.filterMap fun l => match l.lay with
      | .indexed v => if m.slots.contains l.slot then some v else none
      | _ => none
    let read := later.foldl markUses ((vals ++ idx).foldl markVal { nodes := [], slots := [], caps := [] })
    ((ns.filter fun n => bs.contains n.block && read.nodes.contains n.id && !(decide (0x70 ≤ n.eop) && decide (n.eop ≤ 0x72))).map
      Node.id).take 4

/-- A value once the value of node i has been captured at a base (R146). -/
def Val.captured (i : Nat) (b : Word) (v : Val) : Val :=
  match v.ref with
  | .node j => if j = i then { v with ref := .capt b } else v
  | .merged _ j => if j = i then { v with ref := .capt b } else v
  | _ => v

/-- The same of a source. -/
def Operand.captured (i : Nat) (b : Word) (o : Operand) : Operand :=
  match o with
  | .val v => .val (v.captured i b)
  | x => x

/-- The same of what a node reads. -/
def Node.captured (i : Nat) (b : Word) (n : Node) : Node :=
  { n with a := n.a.captured i b, b := n.b.captured i b, c := n.c.captured i b, mask := n.mask.map (Val.captured i b),
           prior := n.prior.map (Val.captured i b), below := n.below.map (Val.captured i b), more := n.more.map (Val.captured i b),
           path := n.path.map fun p => { p with sel := p.sel.captured i b } }

/-- The graph as the rest of a forcing instruction sees it once node i has been captured for it at a base: what read the node reads the
region (R146). Another forcing instruction sees the node (R143). -/
def captureNode (a : Arch) (i : Nat) (b : Word) : Arch :=
  { a with
    nodes := a.nodes.map (Node.captured i b), v := a.v.map fun r => { r with val := r.val.captured i b },
    m := a.m.map fun r => { r with val := r.val.captured i b },
    leaves := a.leaves.map fun l => match l.lay with
      | .indexed v => { l with lay := .indexed (v.captured i b) }
      | _ => l }

/-- The graph as a forcing instruction sees it after its cuts. -/
def cutArch (a : Arch) (cuts : List (Nat × Word × Nat)) : Arch := cuts.foldl (fun a x => captureNode a x.1 x.2.1) a

/-- The same of a value. -/
def cutVal (cuts : List (Nat × Word × Nat)) (v : Val) : Val := cuts.foldl (fun v x => v.captured x.1 x.2.1) v

/-- The same of a sink. -/
def Sink.cut (cuts : List (Nat × Word × Nat)) (k : Sink) : Sink :=
  { k with srcs := k.srcs.map (cutVal cuts), mask := k.mask.map (cutVal cuts),
           kind := match k.kind with
             | .store b (.indexed v) => .store b (.indexed (cutVal cuts v))
             | .scatter op b v => .scatter op b (cutVal cuts v)
             | x => x }

/-- A pass begins (R147, R148, R220): the open chunk closes and commits, a thread that holds no cluster renegotiates (R101), and the
pass starts at VRS with what a stop has kept. -/
def startPass (s : State) (all : List Sink) (regions : List (Nat × Word × Nat)) (captureOnly completes : Bool) : State :=
  let a := s.t.a
  let s1 := commitOpen (if completes then countOne s else s)
  let s2 := if holdsCluster s1 then s1 else shareClusters s1
  let st := (resumed a).getD Saved.empty
  let start := a.vrs.mapIdx clusterFirst
  let cuts := liveCuts a
  let e := cutArch a cuts
  let m := reach e (all.map Sink.vals).flatten
  let p : Pass :=
    { sinks := all, len := (all.map Sink.len).foldl Nat.max 0, captureOnly := captureOnly, completes := completes,
      fpc := a.pc, start := start, next := start, clock := 0, ends := [], watch := [], chunks := 0, began := s1.c.cyc,
      st := { st with regions := regions, cuts := cuts }, ftz := a.fctl.getLsbD 3,
      xq := e.nodes.any fun n => n.eop == 0x72 && m.nodes.contains n.id, tally := Tally.zero,
      lost := Vector.replicate 4 0, skipped := none }
  modT s2 fun t => { t with pass := some p }

/-- The capture-space trap of captures, the first of which has sink number n (R153, R155). -/
def spaceTrap (s : State) (caps : List Nat) (n : Nat) : State :=
  let tot := (caps.map fun r => regionSize (capVal s.t.a r)).foldl (· + ·) 0
  takeTrap s { cause := 6, addr := wd tot, blame := (capVal s.t.a (caps.headD 0)).blame.word, stream := wd (8 + n % 4) }
    s.t.a.pc false false false

/-- Captures in the order of their registers. -/
def inRegOrder (l : List Nat) : List Nat := regNums.filter l.contains

/-- The instruction forces a pass with sinks of its own and captures of registers (R147, R148, R153, R220). The capture space is checked
first. Where the sinks would be more than 4, or the nodes do not fit one pass, a capture pass comes first and the instruction acts
after it (R146, R149). -/
def force (s : State) (sinks : List Sink) (caps : List Nat) (completes : Bool) : State :=
  let a := cutArch s.t.a (liveCuts s.t.a)
  let sinks := sinks.map (Sink.cut (liveCuts s.t.a))
  let used := usedRegions a
  let many := decide (4 < sinks.length + caps.length)
  let next := inRegOrder (if many then caps.take 4 else caps)
  match allotAll a used (next ++ caps.filter fun r => !next.contains r) with
  | none => spaceTrap s caps sinks.length
  | some l =>
    let now := l.take next.length
    let all := (if many then [] else sinks) ++ captureSinks a now
    match (overflowCut a all).map (· + 64) with
    | [] => startPass s all now (if many then true else sinks.isEmpty && !completes) (completes && !many)
    | cut => match allotAll a used (cut ++ caps) with
      | none => spaceTrap s (cut ++ caps) 0
      | some l => startPass s (captureSinks a (l.take cut.length)) (l.take cut.length) true false

/-- Registers of a list as capture candidates, by their number. -/
def capturePass (s : State) (caps : List Nat) : State := force s [] caps false

/-- Before an action of the thread: a capture pass runs and the instruction acts after it; without captures it acts now. -/
def capturedFirst (s : State) (caps : List Nat) (f : State → State) : State :=
  if caps.isEmpty then f s else capturePass s caps

/-- Registers that depend on a leaf that n bytes at an address overlap by granule (R122, R149). -/
def overlapped (s : State) (va : Word) (n : Nat) : List Nat :=
  if s.t.a.leaves.isEmpty then []
  else dependents s.t.a fun l => l.extent.meets 4096 (.bytes va.toNat (va.toNat + n))

/-- The instruction needs a register RESIDENT (R147, R161, R188): too long a value traps; a PENDING or CAPTURED one is
brought into the register file by a pass and the instruction acts after it. -/
def needResident (s : State) (r : Nat) (f : State → State) : State :=
  let v := regVal s.t.a r
  if residentLimit v.ty < v.len then trapHere s 7 (wd v.len)
  else if v.resident then f s
  else force s [{ kind := .resident r, srcs := [v], len := v.len, mask := none, blame := Blame.zero }] [] false

/-- The lanes of a RESIDENT value. -/
def Val.lanes (v : Val) : List Lane :=
  match v.ref with
  | .res l => l
  | _ => []

/-- The registers that FreeNodes captures so that k nodes are released (R145): the oldest last node first. -/
def freeChoice (a : Arch) (k : Nat) (chosen : List Nat) : List (Nat × Nat) → List Nat
  | [] => chosen
  | (_, r) :: t =>
    let rest := ((pendingRegs a).filter fun x => x != r && !chosen.contains x).map (regVal a)
    let kept := (reach a rest).nodes
    let left := (a.nodes.filter fun n => kept.contains n.id).length
    if k ≤ a.nodes.length - left then r :: chosen else freeChoice a k (r :: chosen) t

/-- The last node that a PENDING register depends on by its own value (R145): for a VLDX binding, of its indices. -/
def lastNode (a : Arch) (r : Nat) : Option Nat :=
  match (regVal a r).ref with
  | .node i => some i
  | .merged i _ => some i
  | .leaf _ _ => match (reach a [regVal a r]).nodes with
    | [] => none
    | l => some (l.foldl Nat.max 0)
  | _ => none

/-- PENDING registers with a last node, oldest first. -/
def byLastNode (a : Arch) : List (Nat × Nat) :=
  ((pendingRegs a).filterMap fun r => (lastNode a r).map fun i => (i, r)).foldl (fun l r => insertRegion r l) []

/-- WEAVE at a block address (R144). DESIGN CHOICE (log entry 85): a misaligned target traps before anything of its block is looked at, as
R144's steps have it, where R46 ranks the faults of a block before alignment. -/
def weaveAt (s : State) (t : Word) : State :=
  if t.toNat % 8 ≠ 0 then trapHere s 2 t else
    match fetchWord s t with
    | (s1, .error f) => blockTrap s1 f.cause 0 t
    | (s1, .ok h) =>
      let header := h.toNat
      let n := ef header 51 5 + 1
      if !headerOk header then blockTrap s1 1 0 t else
        let r := fetchWords s1 (t + 8) (n + 1)
        let s2 := r.1
        let words := r.2.1
        match blockDefect header words, r.2.2 with
        | some p, _ => blockTrap s2 1 p (t + wd (8 * p))
        | none, some f => blockTrap s2 f.cause (words.length + 1) f.addr
        | none, none =>
          let held := s2.t.a.nodes.length
          if 64 < held + n then
            capturedFirst s2 (freeChoice s2.t.a (held + n - 64) [] (byLastNode s2.t.a)).reverse
              fun s => complete (modA s fun a => appendBlock a header (words.take n))
          else complete (modA s2 fun a => appendBlock a header (words.take n))

end Sys2Proof.Machine
end

