-- ==== Sys2Proof/Machine/Pass.lean ====
section
/-! DEFINITION. Machine/Pass.lean: a shuttle pass over the pending graph (R148 to R158, R164, R181 to R185, R196, R200 to R204,
R217 to R224, R370, R411, R412): element groups in element order, faults, stops and completion. -/

namespace Sys2Proof.Machine

open Sys2Proof

/-- A fault of a pass element: the module, with the A and D bits that the group's demands have set (R349), cause, address, destination,
blame and stream words (R155), and for a VLD.FF leaf its slot and the length to which it is trimmed (R157). -/
structure PassFault where
  /-- The module. -/
  s : State
  /-- Cause code. -/
  cause : Nat
  /-- TRAPADDR. -/
  addr : Word
  /-- Goes to H. -/
  toH : Bool
  /-- TRAPBLAME. -/
  blame : Word
  /-- TRAPSTREAM. -/
  stream : Word
  /-- A trim. -/
  trim : Option (Nat × Nat)

/-- An access of a pass element, for data watchpoints (R411). -/
structure Seen where
  /-- Address. -/
  va : Word
  /-- Bytes. -/
  n : Nat
  /-- It reads. -/
  rd : Bool
  /-- It writes. -/
  wrt : Bool
  /-- TRAPBLAME. -/
  blame : Word
  /-- TRAPSTREAM. -/
  stream : Word
  /-- The stream is indexed. -/
  line : Bool

/-- A group at work: the module, the pass chunk, what the pass keeps, the flags raised, the accesses made, the occupancy and
activity of its elements, and the elements of a remote sink, newest first. -/
structure Work where
  /-- The module. -/
  s : State
  /-- The pass chunk. -/
  c : Chunk
  /-- Accumulators, heads, lanes. -/
  st : Saved
  /-- Flags. -/
  fl : BitVec 6
  /-- Accesses, newest first. -/
  seen : List Seen
  /-- Elements, newest first. -/
  els : List LaneElem
  /-- Elements of an RRED sink, newest first. -/
  rem : List (Bool × Lane)
  /-- The translations that a chunk which runs once more has kept (R159). -/
  kept : Option (List PageUse)

/-- Who is blamed for a stream, and its TRAPSTREAM (R155). -/
structure Tag where
  /-- TRAPBLAME. -/
  blame : Word
  /-- TRAPSTREAM. -/
  stream : Word

/-- The fault of an access of a pass element. -/
def Tag.fault (g : Tag) (s : State) (cause : Nat) (a : Word) (toH : Bool) : PassFault :=
  { s := s, cause := cause, addr := a, toH := toH, blame := g.blame, stream := g.stream, trim := none }

/-- Enter an access of n bytes at a place in a signature (R278): by line for gathers and scatters, else by granule. -/
def chunkItem (c : Chunk) (wrt line : Bool) (k : Nat) : Chunk :=
  if line then
    (if wrt then { c with writeL := addItem c.writeL (k / 64) } else { c with readL := addItem c.readL (k / 64) })
  else if wrt then { c with writeG := addItem c.writeG (k / 4096) }
  else { c with readG := addItem c.readG (k / 4096) }

/-- The place of a pass element's address, and the chunk's record of its translation (R154, R159): a chunk that runs once more keeps the
translations that it had. -/
def Work.reach (w : Work) (kind : Kind) (va : Word) : State × Except Flt (Chunk × Nat) :=
  let fresh : State × Except Flt (Chunk × Nat) :=
    let r := demand w.s (who w.s) kind va
    (r.1, r.2.map fun k => (w.c.use r.1 (who w.s) va.toNat k, k))
  match w.kept with
  | none => fresh
  | some l =>
    if 4503595332403200 ≤ va.toNat then
      match localKey (sramMib w.s) (coreOf w.s.cur) va.toNat with
      | some k => (w.s, .ok (w.c, k))
      | none => fresh
    else match l.find? fun u => u.page == va.toNat / 65536 with
      | none => fresh
      | some u => match keptPlace w.s (who w.s) kind va.toNat u with
        | none => fresh
        | some r => (w.s, r.map fun k => (if w.c.used.contains u then w.c else { w.c with used := u :: w.c.used }, k))

/-- A pass element's place for an access of n bytes, which lie in one page (R154). One that uses what the bytes held, a read, an
atomic or a write of a part of a byte, meets an uncorrectable error there. -/
def passPlace (w : Work) (g : Tag) (kind : Kind) (uses : Bool) (va : Word) (n : Nat) (line : Bool) :
    Except PassFault (Work × Nat) :=
  match w.reach kind va with
  | (s1, .error f) => .error (g.fault s1 f.cause va f.toH)
  | (s1, .ok (c, k)) =>
    if isDevice k then .error (g.fault s1 3 va false)
    else if uses = true ∧ isPoisoned s1 k = true ∧ (c.writes.any fun e => e.1 == k) = false then .error (g.fault s1 8 va false)
    else .ok ({ w with s := s1, c := chunkItem c (kind == .write) line k,
                       seen := { va := va, n := n, rd := kind == .read, wrt := kind == .write, blame := g.blame,
                                 stream := g.stream, line := line } :: w.seen }, k)

/-- Read the code of an element of a type at an address (R62, R64, R68, R69): its lane. -/
def passRead (w : Work) (g : Tag) (ty e : Nat) (va : Word) (line : Bool) : Except PassFault (Work × Lane) :=
  match passPlace w g .read true va (tyBytes ty) line with
  | .error f => .error f
  | .ok (w1, k) =>
    let n := leNat (chunkByte w1.s w1.c) k (tyBytes ty)
    .ok (w1, laneOf ty (if tyBits ty < 8 then n / 2 ^ bitPos ty e % 2 ^ tyBits ty else n))

/-- Write the code of a lane of a type at an address (R200): a nibble or a bit leaves the rest of its byte. -/
def passWrite (w : Work) (g : Tag) (ty e : Nat) (va : Word) (line : Bool) (l : Lane) : Except PassFault Work :=
  match passPlace w g .write (decide (tyBits ty < 8)) va (tyBytes ty) line with
  | .error f => .error f
  | .ok (w1, k) =>
    let v := codeOf ty l
    let old := (chunkByte w1.s w1.c k).toNat
    let p := 2 ^ bitPos ty e
    let b := if tyBits ty < 8 then [BitVec.ofNat 8 (old - old / p % 2 ^ tyBits ty * p + v * p)] else leBytes (tyBytes ty) v
    .ok { w1 with c := w1.c.put k b }

/-- The register whose capture region starts at an address (R155): the lowest number; 0 where none names it now. A register of length 0 has no
region. -/
def regionReg (a : Arch) (b : Word) : Nat :=
  (regNums.filter fun r => (regVal a r).ref == .capt b && (regVal a r).len != 0).headD 0

/-- Read the captured values that the pass needs at element e. -/
def readCaps (w : Work) (e : Nat) (env : Env) : List Val → Except PassFault (Work × Env)
  | [] => .ok (w, env)
  | v :: t =>
    match v.ref with
    | .capt b =>
      if v.len ≤ e then readCaps w e env t else
        let g : Tag := { blame := v.blame.word, stream := wd (regionReg w.s.t.a b * 32 + 16) }
        match passRead w g v.ty e (elemAddr b .unit v.ty e 0 0) false with
        | .error f => .error f
        | .ok (w1, l) => readCaps w1 e { env with caps := (b.toNat, l) :: env.caps } t
    | _ => readCaps w e env t

/-- Bytes of the page that an address lies on (R345); of one that no leaf translates, 64 KiB (DEDUCED, log entry 38). -/
def pageSize (s : State) (va : Nat) : Nat :=
  if 4503595332403200 ≤ va then 65536 else match leafFor s (who s) .read va with
    | .ok x => 2 ^ x.bits
    | .error _ => 65536

/-- The length to which a fault on element e trims a VLD.FF leaf (R157): the lowest element on the page. -/
def trimAt (s : State) (l : Leaf) (va : Word) : Nat :=
  let size := pageSize s va.toNat
  let page := va.toNat / size * size
  if page ≤ l.base.toNat then 0 else ((page - l.base.toNat) * 8 + tyBits l.ty - 1) / tyBits l.ty

/-- Read the fields of a leaf at element e (R195, R196). -/
def readLeaf (w : Work) (l : Leaf) (e : Nat) (env : Env) (f : Nat) : Nat → Except PassFault (Work × Env)
  | 0 => .ok (w, env)
  | n + 1 =>
    let g : Tag := { blame := blameWord 1 0 l.bpc, stream := wd l.slot }
    let line := match l.lay with
      | .indexed _ => true
      | _ => false
    let va := elemAddr l.base l.lay l.ty e f (indexAt l.lay env e)
    match passRead w g l.ty e va line with
    | .error x =>
      if l.ff && (x.cause == 3 || x.cause == 4 || x.cause == 5) && trimAt w.s l va != 0
      then .error { x with trim := some (l.slot, trimAt w.s l va) } else .error x
    | .ok (w1, v) => readLeaf w1 l e { env with leaves := (8 * l.slot + f, v) :: env.leaves } (f + 1) n

/-- Fields of a leaf. -/
def Leaf.fields (l : Leaf) : Nat :=
  match l.lay with
  | .seg n => n
  | _ => 1

/-- Does a node lie on the path that element e takes (R181)? -/
def onPath (n : Node) (nodes : List Node) (env : Env) (e : Nat) : Bool :=
  match n.path with
  | none => true
  | some p =>
    let v := (p.sel.read nodes env (if p.isMask then 14 else 6) e).toNat
    p.path == (if p.isMask then v % 2 else v % 4)

/-- A node acts on element e (R164, R181, R184): its value enters the environment, its flags and occupancy the work. Every element of
the pass that takes the node's path places its occupancy (R213, R215). What XQSEND sends is read as its type and brought to it by Fit, as R457 does
for a move (DESIGN CHOICE, log entry 126). -/
def runNode (w : Work) (n : Node) (nodes : List Node) (e : Nat) (env : Env) (occ : Occ) : Work × Env × Occ :=
  let on := onPath n nodes env e
  let occ1 := if on then occ.add n.occ else occ
  if n.len ≤ e then (w, env, occ1)
  else if !on then
    let v := (n.below.map fun v => v.raw env e).getD (0, n.rty)
    (w, { env with nodes := (n.id, v.1) :: env.nodes, passed := if v.2 = n.rty then env.passed else (n.id, v.2) :: env.passed }, occ)
  else
    let on := maskBit n.mask env e
    let a := n.a.read nodes env n.ty e
    if n.eop = 0x72 then
      (if on then
        (let h := (n.id, holdAs n.ty a) :: env.heads.filter fun p => p.1 != n.id
         ({ w with st := { w.st with heads := h } }, { env with heads := h }, occ1))
       else (w, env, occ1))
    else if !on then (w, { env with nodes := (n.id, n.priorAt env e) :: env.nodes }, occ1)
    else
      let r := n.effect e a (n.b.read nodes env n.ty e) (n.c.read nodes env (typeC n.eop n.ty n.ty2) e)
      ({ w with fl := w.fl ||| r.2 }, { env with nodes := (n.id, r.1) :: env.nodes }, occ1)

/-- The latency from its SPLIT to the end of each node of a split region (R167, R215). -/
def pathDepths (nodes : List Node) : List (Nat × Nat) :=
  (nodes.filter fun n => n.path.isSome).foldl (fun r n =>
    let of (o : Operand) : Nat := match o with
      | .val v => (match v.ref with
        | .node i => ((r.find? fun p => p.1 == i).map Prod.snd).getD 0
        | _ => 0)
      | _ => 0
    (n.id, (unitOf n.eop).2.2 + ([n.a, n.b, n.c].map of).foldl Nat.max 0) :: r) []

/-- The latency of the path of a split region that element e takes (R181, R215): 0 outside one. -/
def depthOf (nodes : List Node) (env : Env) (e : Nat) : Nat :=
  (nodes.filter fun n => n.path.isSome && onPath n nodes env e).foldl (fun d n =>
    Nat.max d ((((pathDepths nodes).find? fun p => p.1 == n.id).map Prod.snd).getD 0)) 0

/-- Work through the graph at element e, oldest part first: what its nodes deliver, and the occupancy of all of them and of those that
captures alone need. -/
def runParts (w : Work) (nodes : List Node) (side : List Nat) (e : Nat) (env : Env) (occ : Occ × Occ) :
    List GraphPart → Except PassFault (Work × Env × Occ × Occ)
  | [] => .ok (w, env, occ)
  | .leaf l :: t =>
    if l.len ≤ e then runParts w nodes side e env occ t else
      match readLeaf w l e env 0 l.fields with
      | .error f => .error f
      | .ok (w1, env1) => runParts w1 nodes side e env1 occ t
  | .node n :: t =>
    let r := runNode w n nodes e env Occ.zero
    runParts r.1 nodes side e r.2.1 (occ.1.plus r.2.2, if side.contains n.id then occ.2.plus r.2.2 else occ.2) t

/-- A reduction's step on floating-point values (R203); the orders take the maximum, as the bitwise operations have no such form. -/
def redFloat (op : RedOp) (t : Nat) (ftz : Bool) (x y : BitVec 32) : BitVec 32 × BitVec 6 :=
  match op with
  | .add => fpAdd t 0 ftz x y
  | .min => fpMinMax t ftz false x y
  | .max | .and | .or | .xor => fpMinMax t ftz true x y

/-- A reduction's step on integers (R203). -/
def redInt (op : RedOp) (t : Nat) (x y : Lane) : Lane :=
  let i := patInt t x
  let j := patInt t y
  match op with
  | .add => wrapInt t (i + j)
  | .min => wrapInt t (if j < i then j else i)
  | .max => wrapInt t (if i < j then j else i)
  | .and => holdAs t (x &&& y)
  | .or => holdAs t (x ||| y)
  | .xor => holdAs t (x ^^^ y)

/-- A reduction's step on mask bits (R203). -/
def redBit (op : RedOp) (x y : Lane) : Lane :=
  match op with
  | .add => x + y
  | .min | .and => x &&& y
  | .xor => x ^^^ y
  | .max | .or => x ||| y

/-- A reduction's operation on two lanes of a type (R203): flags from floating-point operations. -/
def redOp (op : RedOp) (t : Nat) (ftz : Bool) (x y : Lane) : Lane × BitVec 6 :=
  if tyFloat t then
    let r := redFloat op t ftz (x.setWidth 32) (y.setWidth 32)
    (r.1.setWidth 64, r.2)
  else if tyInt t then (redInt op t x y, 0)
  else (redBit op x y, 0)

/-- Accumulator i; EMPTY where none is kept (R84). -/
def accAt (st : Saved) (i : Nat) : Acc := st.acc.getD i none

/-- Set accumulator i. -/
def putAcc (st : Saved) (i : Nat) (v : Acc) : Saved :=
  { st with acc := (st.acc ++ List.replicate (i + 1 - st.acc.length) none).set i v }

/-- An element enters a reduction (R84, R203, R204): MIN and MAX of floating-point values start from the canonical NaN. -/
def reduceElem (st : Saved) (op : RedOp) (t : Nat) (ftz withIdx : Bool) (e : Nat) (v : Lane) : Saved × BitVec 6 :=
  let i := if laneSum op t then 16 * (e / 16 % 4) + e % 16 else 0
  let y : Lane × BitVec 6 := if tyFloat t && op != .add then redOp op t ftz (nan32.setWidth 64) v else (v, 0)
  match accAt st i with
  | none => ({ putAcc st i (some y.1) with idx := e }, y.2)
  | some x =>
    let r := redOp op t ftz x y.1
    ({ putAcc st i (some r.1) with idx := if withIdx && r.1 != x then e else st.idx }, y.2 ||| r.2)

/-- A scatter's place lies in the issuing core's TCM window (R201, R246). -/
def inTcm (s : State) (va : Word) (n : Nat) : Bool :=
  decide (4503595332403200 ≤ va.toNat) && decide (va.toNat + n ≤ 4503595332403200 + 262144) && !isSteward s.cur

/-- An element of a scatter-reduce (R201). -/
def scatterElem (w : Work) (g : Tag) (op : RedOp) (ty : Nat) (ftz : Bool) (e : Nat) (va : Word) (v : Lane) :
    Except PassFault Work :=
  if !inTcm w.s va (tyBytes ty) then .error (g.fault w.s 4 va false) else
    match passPlace w g .amo true va (tyBytes ty) true with
    | .error f => .error f
    | .ok (w1, k) =>
      let old := laneOf ty (leNat (chunkByte w1.s w1.c) k (tyBytes ty))
      let r := redOp op ty ftz old v
      let seen := match w1.seen with
        | x :: t => { x with wrt := true } :: t
        | [] => []
      passWrite { w1 with fl := w1.fl ||| r.2, c := chunkItem w1.c false true k, seen := seen } g ty e va true r.1 |>.map
        fun w2 => { w2 with seen := seen }

/-- Store the fields of an element (R200). -/
def storeFields (w : Work) (g : Tag) (base : Word) (lay : Layout) (e f : Nat) (line : Bool) (env : Env) :
    List Val → Except PassFault Work
  | [] => .ok w
  | v :: t =>
    match passWrite w g v.ty e (elemAddr base lay v.ty e f (indexAt lay env e)) line (v.at env e) with
    | .error x => .error x
    | .ok w1 => storeFields w1 g base lay e (f + 1) line env t

/-- Keep a lane for a register-file sink. -/
def keepLane (st : Saved) (reg : Nat) (l : Lane) : Saved :=
  let old := ((st.lanes.find? fun p => p.1 == reg).map Prod.snd).getD []
  { st with lanes := (reg, l :: old) :: st.lanes.filter fun p => p.1 != reg }

/-- The sink numbered i takes element e (R147, R155, R200 to R204, R370). -/
def runSink (w : Work) (p : Pass) (i : Nat) (k : Sink) (e : Nat) (env : Env) : Except PassFault Work :=
  if k.len ≤ e then .ok w else
    let on := maskBit k.mask env e
    let g : Tag := { blame := match k.kind with
      | .capture _ _ => k.blame.word
      | _ => blameWord 2 0 p.fpc, stream := wd (8 + i % 4) }
    let v := k.srcs.headD Val.empty
    let x := v.at env e
    match k.kind with
    | .store base lay =>
      if !on then .ok w else
        let line := match lay with
          | .indexed _ => true
          | _ => false
        storeFields w g base lay e 0 line env k.srcs
    | .scatter op base idx =>
      if !on then .ok w else
        scatterElem w g op v.ty p.ftz e (elemAddr base (.indexed idx) v.ty e 0 (readAs 3 idx.ty (idx.at env e))) x
    | .reduce op _ withIdx =>
      if !on then .ok w else
        let r := reduceElem w.st op v.ty p.ftz withIdx e x
        .ok { w with st := r.1, fl := w.fl ||| r.2 }
    | .remote _ _ => .ok { w with rem := (on, x) :: w.rem }
    | .capture base _ => passWrite w g v.ty e (elemAddr base .unit v.ty e 0 0) false x
    | .resident reg => .ok { w with st := keepLane w.st reg x }

/-- The sinks take element e in order. -/
def runSinks (w : Work) (p : Pass) (e : Nat) (env : Env) (i : Nat) : List Sink → Except PassFault Work
  | [] => .ok w
  | k :: t => match runSink w p i k e env with
    | .error f => .error f
    | .ok w1 => runSinks w1 p e env (i + 1) t

/-- Does some sink take element e, by its length and mask (R223)? -/
def anySink (p : Pass) (e : Nat) (env : Env) : Bool :=
  p.sinks.any fun k => decide (e < k.len) && maskBit k.mask env e

/-- Elements from e on, n of them (R150: every leaf element is read before a sink element is written). -/
def runElems (w : Work) (p : Pass) (parts : List GraphPart) (nodes : List Node) (side : List Nat) (caps : List Val) (e : Nat) :
    Nat → Except PassFault Work
  | 0 => .ok w
  | n + 1 =>
    match readCaps w e (Env.start w.st.heads) caps with
    | .error f => .error f
    | .ok (w1, env1) => match runParts w1 nodes side e env1 (Occ.zero, Occ.zero) parts with
      | .error f => .error f
      | .ok (w2, env2, occ) =>
        match runSinks { w2 with els := ⟨occ.1, occ.2, anySink p e env2, depthOf nodes env2 e⟩ :: w2.els } p e env2 0 p.sinks with
        | .error f => .error f
        | .ok w3 => runElems w3 p parts nodes side caps (e + 1) n

/-- The parts of the graph that a pass needs (R146, R157). -/
def passParts (a : Arch) (p : Pass) : List GraphPart × Marks :=
  let m := reach a (p.sinks.map Sink.vals).flatten
  ((graphItems a).filter fun g => match g with
    | .node n => m.nodes.contains n.id
    | .leaf l => m.slots.contains l.slot, m)

/-- Is it a capture? -/
def Sink.isCapture (k : Sink) : Bool :=
  match k.kind with
  | .capture _ _ => true
  | _ => false

/-- The nodes that captures alone need in a pass that does something else too (R224). -/
def sideNodes (a : Arch) (p : Pass) : List Nat :=
  let main := p.sinks.filter fun k => !k.isCapture
  if main.isEmpty || main.length == p.sinks.length then [] else
    let m := (reach a (main.map Sink.vals).flatten).nodes
    (a.nodes.map Node.id).filter fun i => !m.contains i

/-- The queue heads before element 0 (R184): each XQSEND's seed, unless a stop has kept a head. -/
def seedHeads (st : Saved) (nodes : List Node) : Saved :=
  nodes.foldl (fun st n =>
    if n.eop ≠ 0x72 ∨ (st.heads.any fun p => p.1 == n.id) = true then st
    else { st with heads := (n.id, holdAs n.ty (n.b.read nodes (Env.start []) n.ty 0))
             :: st.heads }) st

/-- The bit of a sink's mask as the stream controller reads it before the pass (R221): a RESIDENT mask or a mask stream;
none where the mask is neither, or its element cannot be read. -/
def earlyBit (s : State) (m : Option Val) (e : Nat) : Option Bool :=
  match m with
  | none => some true
  | some v =>
    if v.len ≤ e then some false else
      match v.ref with
      | .res l => some (decide ((l.getD e 0).toNat % 2 = 1))
      | .leaf sl _ =>
        match s.t.a.leaves.find? fun l => l.slot == sl with
        | none => none
        | some l =>
          if l.len ≤ e then some false else
            match lookup s (who s) .read (elemAddr l.base l.lay 14 e 0 0) with
            | .error _ => none
            | .ok (k, _) => if isDevice k ∨ isPoisoned s k then none else some (bitAt (memByte s k).toNat (e % 8))
      | _ => none

/-- May the pass skip groups (R221)? A sink that m0 governs has no mask that could exclude a group. -/
def canSkip (p : Pass) : Bool :=
  !p.xq && !p.sinks.isEmpty && p.sinks.all fun k =>
    (match k.kind with
     | .capture _ _ => false
     | .resident _ => false
     | _ => true) &&
    (match k.mask with
     | none => false
     | some v => match v.ref with
       | .res _ => true
       | .leaf _ _ => true
       | _ => false)

/-- Do the masks exclude the group at an element (R221)? All 16 bits of every mask are false. -/
def excluded (s : State) (p : Pass) (first : Nat) : Bool :=
  p.sinks.all fun k => (List.range 16).all fun i => earlyBit s k.mask (first + i) == some false

/-- First elements of the groups that a pass has still to run. -/
def groupsLeft (p : Pass) : List Nat :=
  ((List.range ((p.len + 15) / 16)).map fun i => 16 * i).filter fun e => decide (p.at (e / 16 % 4) ≤ e)

/-- The stream controller reads a mask stream at the pass's start (R221): its granules, and the translations that it uses (R360), enter the pass
chunk. -/
def readMask (s : State) (p : Pass) (c : Chunk) (k : Sink) : Chunk :=
  match k.mask with
  | some { ref := .leaf sl _, len := _, ty := _, blame := _ } =>
    (match s.t.a.leaves.find? fun l => l.slot == sl with
     | none => c
     | some l => (groupsLeft p).foldl (fun c e => match lookup s (who s) .read (elemAddr l.base l.lay 14 e 0 0) with
       | .error _ => c
       | .ok (k, x) =>
         let va := (elemAddr l.base l.lay 14 e 0 0).toNat
         chunkItem ((x.map fun y => c.useOf (who s) va k (2 ^ y.bits) (y.fot.getD (fotOf s (who s) k)) (wd y.entry)).getD c) false false k) c)
  | _ => c

/-- A pass about to run its first group has its masks read (R221). -/
def readMasks (s : State) (p : Pass) (c : Chunk) : Pass × Chunk :=
  if p.skipped.isSome then (p, c)
  else if !canSkip p then ({ p with skipped := some [] }, c)
  else ({ p with skipped := some ((groupsLeft p).filter (excluded s p)) }, p.sinks.foldl (readMask s p) c)

/-- Is the group at an element skipped (R221)? -/
def Pass.skips (p : Pass) (first : Nat) : Bool := (p.skipped.getD []).contains first

/-- May the pass compact (R222)? -/
def canCompact (p : Pass) : Bool :=
  canSkip p && p.sinks.all fun k => match k.kind with
    | .reduce _ _ _ => false
    | _ => true

/-- The node whose output a value is (R181). -/
def nodeOf (v : Val) : Option Nat :=
  match v.ref with
  | .merged m _ => some m
  | .node i => some i
  | _ => none

/-- The nodes that a MERGE may collect a value from (R181): its last writer in block order, and what elements of other paths keep. -/
def gathered (nodes : List Node) : Nat → Val → List Nat
  | 0, _ => []
  | k + 1, v => match v.ref with
    | .node i => i :: (((nodes.find? fun x => x.id == i).bind Node.below).map (gathered nodes k)).getD []
    | _ => (nodeOf v).toList

/-- Latest chain from a reader of a queue's head to each node (R185): latencies by node number. A node inside a split region follows its SPLIT, a
MERGE what its paths write, and a masked node what stood before it. A MERGE counts whether the XQSEND uses that value or not (DESIGN CHOICE, log entry
139). -/
def chains (nodes : List Node) : List (Nat × Nat) :=
  nodes.foldl (fun r n =>
    let ops := [n.a, n.b, n.c]
    let lat := (unitOf n.eop).2.2
    let reads := n.eop == 0x73 || ops.any fun o => match o with
      | .head _ => true
      | _ => false
    let vals := (ops.filterMap fun o => match o with
      | .val v => some v
      | _ => none) ++ [n.mask, if n.mask.isSome then n.prior else none].filterMap id
    let ids := vals.filterMap nodeOf ++ (n.more.map (gathered nodes nodes.length)).flatten ++ (n.path.map fun p => [p.split]).getD []
    let l := ids.filterMap fun i => (r.find? fun p => p.1 == i).map Prod.snd
    if reads || !l.isEmpty then (n.id, lat + l.foldl Nat.max 0) :: r else r) []

/-- Q of R185. -/
def queueRate (nodes : List Node) : Nat :=
  let r := chains nodes
  (nodes.filter fun n => n.eop == 0x72).foldl (fun q n =>
    Nat.max q (((r.find? fun p => p.1 == n.id).map Prod.snd).getD 1)) 1

/-- The active elements of a group. -/
def activeIn (els : List LaneElem) : List Occ := (els.filter LaneElem.active).map LaneElem.occ

/-- The bank of an on-chip access (R251): those of TCM, 0 to 63, and of the loom's scratchpad, from 64 on. -/
def bankOf (va : Word) : Option Nat :=
  let o := va.toNat % 4294967296
  if va.toNat < 4503595332403200 then none
  else if o < 262144 then some (o / 4 % 64)
  else if 16777216 ≤ o ∧ o < 20971520 then some (64 + o / 8 % 64) else none

/-- Core cycles by which the accesses of a group's elements wait for each other's banks (R201, R251): an indexed stream makes those of a group in one
cycle, one element to a lane. -/
def bankWaits (seen : List Seen) : Nat :=
  let l := seen.filterMap fun x => if x.line then (bankOf x.va).map fun b => (x.stream, b) else none
  let streams := (l.map Prod.fst).eraseDups
  (streams.map fun i => ((l.map fun x => if x.1 = i then l.count x - 1 else 0).foldl Nat.max 0)).foldl (· + ·) 0

/-- Is a group with these elements held to be merged (R222)? -/
def holdsGroup (p : Pass) (thr : Nat) (els : List LaneElem) : Bool :=
  !p.xq && canCompact p && decide (0 < (activeIn els).length) && decide ((activeIn els).length < thr)

/-- The lane-cycle record takes the group of cluster c at an element, on k physical clusters (R102, R213, R222, R185). -/
def tallyGroup (k : Nat) (p : Pass) (nodes : List Node) (thr first : Nat) (els : List LaneElem) : Tally :=
  let c := first / 16 % 4
  if p.xq then
    let q := queueRate nodes
    (els.foldl (fun (r : Tally × Nat) x => (r.1.upd (16 * c + r.2) fun w =>
      if x.active then { w with useful := w.useful + q } else { w with masked := w.masked + q }, r.2 + 1)) (p.tally, 0)).1
  else if holdsGroup p thr els then p.tally.hold c (first / 64) (activeIn els)
  else p.tally.group (p.place k c first) els

/-- Work of cluster c enters the record of a pass: held groups of which nothing is held any more end as it issues (R222). -/
def Pass.settle (p : Pass) (c : Nat) (t : Tally) : Pass :=
  let p1 := { p with tally := t }
  { p1 with ends := ((p.heldFirsts c).filter fun e => !(p1.heldFirsts c).contains e).map (fun e => (e, p1.issueAt c)) ++ p.ends }

/-- What cluster c holds runs as far as its next group has it run (R222). -/
def Pass.release (p : Pass) (k c : Nat) : Pass := p.settle c (p.tally.release (p.place k c (p.at c)) (p.at c / 64))

/-- What the clusters of a pass hold runs as far as the next group of cluster c has it run; where the groups complete in element order the windows of
all clusters move with it (R216, R222). -/
def Pass.slide (p : Pass) (slips : Bool) (k c : Nat) : Pass :=
  let p1 := if slips then p else
    ((List.range 4).filter (· ≠ c)).foldl (fun q d => q.settle d (q.tally.slide (q.place k d (q.at d)) (p.at c / 64))) p
  p1.release k c

/-- The pass after the group of cluster c at its pointer: a cluster that has issued its last group runs what it holds (R222). `flies`: the group's
elements are in its lanes. -/
def Pass.after (p : Pass) (k c : Nat) (t : Tally) (flies : Bool) : Pass :=
  let n := p.at c + 64
  let p1 := p.settle c t
  let p2 := { p1 with next := p.next.setIfInBounds c n, ends := if flies then (p.at c, p1.issueAt c) :: p1.ends else p1.ends }
  if p.len ≤ n then p2.settle c (t.flush (p.place k c n)) else p2

/-- First elements of the groups from one vector to another, in element order. -/
def groupsBetween (v w : Vector Nat 4) (len : Nat) : List Nat :=
  ((List.range ((len + 15) / 16)).map fun i => 16 * i).filter fun e =>
    decide (v.toList.getD (e / 16 % 4) 0 ≤ e) && decide (e < w.toList.getD (e / 16 % 4) 0)

/-- Core cycles that a group takes on its lanes (R102, R213): they are lost with it (R224). -/
def groupCost (k : Nat) (nodes : List Node) : Nat :=
  ceilDiv (twelfths k (busyFor 1 (nodes.foldl (fun o n => o.add n.occ) Occ.zero))) 12

/-- The packet of an RRED's group (R370): it leaves at the commit of the pass chunk. -/
def remotePacket (s : State) (p : Pass) (first : Nat) (rem : List (Bool × Lane)) : List Msg :=
  match p.sinks.head? with
  | some { kind := .remote da sc, srcs := v :: _, len := _, mask := _, blame := _ } =>
    let l := rem.reverse
    let m := (l.foldr (fun x n => b2n x.1 + 2 * n) 0)
    if m = 0 then [] else
      [.rred s.cur (da + wd (first * tyBytes v.ty)) v.ty sc (BitVec.ofNat 16 m) (l.map fun x => x.2.setWidth 32)]
  | _ => []

/-- A pass whose sinks that a test finds are trimmed to k elements. -/
def Pass.trim (p : Pass) (dep : Val → Bool) (k : Nat) : Pass :=
  let sinks := p.sinks.map fun x => if x.vals.any dep then { x with len := Nat.min x.len k } else x
  { p with sinks := sinks, len := (sinks.map Sink.len).foldl Nat.max 0 }

/-- A VLD.FF leaf is trimmed to k elements (R157): the leaf, every register and sink that depends on it, in the pass and in what a
squash or a stop returns to, and VL. -/
def trimLeaf (s : State) (p : Pass) (slot k : Nat) : State :=
  let dep (v : Val) : Bool := (reach s.t.a [v]).slots.contains slot
  let cut (v : Val) : Val := { v with len := Nat.min v.len k }
  let a := regNums.foldl (fun a r => if dep (regVal s.t.a r) then setReg a r (cut (regVal s.t.a r)) else a) s.t.a
  modT s fun t =>
    { t with a := { a with leaves := a.leaves.map fun l => if l.slot = slot then { l with len := Nat.min l.len k } else l,
                           vlLen := Nat.min a.vlLen k },
             pass := some (p.trim dep k), passCkpt := t.passCkpt.map fun q => (q.1.trim dep k, q.2) }

/-- Matching accesses of data watchpoint j in a group: the one at the lowest address (R411). -/
def firstSeen (s : State) (j : Nat) (l : List Seen) : Option Seen :=
  (l.filter fun x => watchMatch s s.t.lvl j x.va x.n x.rd x.wrt true).foldl (fun r x => match r with
    | none => some x
    | some y => if x.va.toNat < y.va.toNat then some x else some y) none

/-- The watchpoint trap that the group at an element calls for once it is complete, as `Pass.watch` keeps it (R411 to R413). -/
def groupWatch (s : State) (p : Pass) (first n : Nat) (l : List Seen) : Option (Trap × Nat × Nat) :=
  if s.t.lvl = .h then none else
    let of (x : Seen) : Trap := { cause := 10, addr := x.va, blame := x.blame, stream := x.stream }
    match firstSeen s 0 l with
    | some x => some (of x, first, 0)
    | none => match firstSeen s 1 l with
      | some x => some (of x, first, 1)
      | none =>
        let e := devGet s (paDebug s.cur 0x40)
        let k := fld e 0 31
        if fld e 63 1 = 1 ∧ fld e (if s.t.lvl = .u then 62 else 61) 1 = 1 ∧ first ≤ k ∧ k < first + n ∧ k < p.len
        then some (plainTrap 10 (wd k), first, 2) else none

/-- The open pass chunk; a new one takes its checkpoint: the pass and FSTAT (R277). -/
def passChunk (s : State) (p : Pass) : State × Chunk :=
  match s.t.sealed with
  | some c => (s, c)
  | none => (modT s fun t => { t with passCkpt := some (p, t.a.fstat) }, Chunk.empty p.fpc p.chunks)

/-- What a pass evaluates (R146): its graph after the cuts, the nodes that captures alone need, the values it reads captured. -/
structure Plan where
  /-- The parts of the graph. -/
  parts : List GraphPart
  /-- The nodes among them. -/
  nodes : List Node
  /-- Nodes that captures alone need. -/
  side : List Nat
  /-- Captured values. -/
  caps : List Val

/-- The plan of a pass in a checkpointed state. -/
def planOf (a : Arch) (p : Pass) : Plan :=
  let e := cutArch a p.st.cuts
  let parts := passParts e p
  { parts := parts.1, side := sideNodes e p, caps := parts.2.caps,
    nodes := parts.1.filterMap fun g => match g with
      | .node n => some n
      | .leaf _ => none }

/-- A group at work starts from a chunk. -/
def Work.start (s : State) (c : Chunk) (st : Saved) (nodes : List Node) (kept : Option (List PageUse)) : Work :=
  { s := s, c := c, st := seedHeads st nodes, fl := 0, seen := [], els := [], rem := [], kept := kept }

/-- A completed group's chunk counts 16, and holds its packet (R273, R370). -/
def Work.close (w : Work) (p : Pass) (first : Nat) : Chunk :=
  { w.c with count := w.c.count + 16, out := w.c.out ++ remotePacket w.s p first w.rem }

/-- Groups of a pass are evaluated once more, on k physical clusters, until one leaves the chunk where it may not go on (`bar`; the chunk with that
group) or ends it (`stop`): the work, and the pass after them. -/
def workAgain (k thr : Nat) (g : Plan) (bar : Chunk → Bool) (stop : Chunk → Pass → Bool) (p : Pass) (w : Work) :
    List Nat → Except PassFault (Work × Pass × Option Chunk)
  | [] => .ok (w, p, none)
  | first :: l =>
    let c := first / 16 % 4
    let q := p.release k c
    if p.skips first then
      let p1 := q.after k c (q.tally.skip (q.place k c first)) false
      if stop w.c p1 then .ok (w, p1, none) else workAgain k thr g bar stop p1 w l
    else match runElems { w with els := [], rem := [] } p g.parts g.nodes g.side g.caps first (Nat.min 16 (p.len - first)) with
      | .error f => .error f
      | .ok w1 =>
        let c1 := w1.close p first
        if bar c1 then .ok (w, p, some c1) else
          let p1 := q.after k c (tallyGroup k q g.nodes thr first w1.els.reverse) false
          if stop c1 p1 then .ok ({ w1 with c := c1 }, p1, none) else workAgain k thr g bar stop p1 { w1 with c := c1 } l

/-- A stop rolls a pass back to a vector (R218, R222): the open chunk is evaluated from its start up to there, with the translations that it had.
The time of the groups that remain is kept; that of the others is lost (R224). -/
def rollBack (s : State) (v : Vector Nat 4) : State :=
  match s.t.pass, s.t.passCkpt, s.t.sealed with
  | some q, some (p, f), some c =>
    if v = q.next ∧ q.tally.held.isEmpty = true then s else
      let s0 := modT s fun t => { t with a := { t.a with fstat := f } }
      let g := planOf s0.t.a q
      let c0 := Chunk.empty p.fpc p.chunks
      let c1 := if p.skipped.isSome then c0 else (readMasks s0 p c0).2
      let k := Nat.max 1 (clustersHeld s)
      match workAgain k s.t.a.cmpthr.toNat g (fun _ => false) (fun _ _ => false) { p with lost := q.lost, skipped := q.skipped, len := q.len, sinks := q.sinks }
          (Work.start s0 c1 p.st g.nodes (some c.used)) (groupsBetween p.next v q.len) with
      | .error _ => s
      | .ok (w, p1, _) =>
        let t1 := (List.range 4).foldl (fun t c => t.flush (p1.place k c (p1.at c))) p1.tally
        let q1 := { q with st := w.st, next := v, tally := t1, ends := [],
                           lost := q.lost.mapIdx fun c n => n + Pass.spent { q with next := v, tally := t1 } q c }
        modT (raise w.s w.fl) fun t =>
          { t with pass := some q1, sealed := if w.c.count = 0 then none else some w.c,
                   passCkpt := if w.c.count = 0 then none else t.passCkpt }
  | _, _, _ => s

/-- A pass stops, at a time of its clock or now (R158, R185, R218): groups in flight are rolled back, the completed ones commit, VRS holds the
restart vector, and what it has accumulated is kept. A chunk that the pass before it has sealed waits on (R159). -/
def stopPass (s0 : State) (at_ : Option Nat) : State :=
  match s0.t.pass with
  | none => s0
  | some q =>
    let v := q.stopVec (slipsIn s0.t.a q) (at_.getD (q.now s0.c))
    let s := rollBack s0 v
    let p := (s.t.pass).getD q
    let w := v.map fun n => if q.xq then Nat.min n q.len else Nat.min n 2147483647
    let s1 := lateStop (chargeLanes (commitPass s p.fpc w) p) p
    rebase (modT (handOver s1) fun t =>
      { t with pass := none, passCkpt := none, a := { t.a with vrs := w, saved := some p.st } })

/-- The pre-emption lands (R389, R390): PARK completes with 1, a PARK.C keeps its count, a pass stops, a stalled instruction is
where it returns. -/
def landPreemption (s : State) : State :=
  let byH := s.t.preH && (s.t.lvl != .h || s.t.hstatus.getLsbD 5)
  let s1 := modT (journalEvent s 2 (wd (b2n byH))) fun t => if byH then { t with preH := false } else { t with preS := false }
  let s2 := if s1.t.run = .parked then wr s1 s1.t.parkReg 1 else modT s1 keepPark
  let s3 := stopPass (modT s2 fun t => { t with run := .running, stall := .none }) none
  takeTrap s3 (plainTrap 14 0) s3.t.a.pc byH false s.t.pass.isSome

/-- The pass stops at a time and its thread traps at the forcing instruction (R156, R218). -/
def passTrap (s : State) (t : Trap) (toH : Bool) (at_ : Nat) : State :=
  match s.t.pass with
  | none => s
  | some p => takeTrap (stopPass s (some at_)) t p.fpc toH false true

/-- The end vector that a replay asks of the open chunk of a pass (R423). -/
def recordedEnd (s : State) (p : Pass) : Option (Vector Nat 4) :=
  (recordFor s 2 (passAgent s.cur) p.chunks).map fun r =>
    let x := r.dw.getD 2 0
    let y := r.dw.getD 3 0
    #v[fld x 0 32, fld x 32 32, fld y 0 32, fld y 32 32]

/-- Has a pass chunk come to its end: for occupancy, which counts in CAPCLOSE, or at the limit (R272, R273, R278, R293); in a replay where
its record says (R423)? -/
def passFull (s : State) (c : Chunk) (p : Pass) : Bool :=
  if replaying s then recordedEnd s p == some p.next
  else overOccupied c || decide (Nat.max 16 s.t.a.chkEff < c.count + 16)

/-- What a pass holds runs as partial groups (R222): its groups are complete. -/
def runHeld (s : State) (p : Pass) : State :=
  let k := Nat.max 1 (clustersHeld s)
  let p1 := { p with tally := (List.range 4).foldl (fun t c => t.flush (p.place k c (p.at c))) p.tally }
  modT s fun t => { t with pass := some p1 }

/-- The open pass chunk closes and commits; what is held runs first, since a chunk closes at completed groups alone (R217; log entry
89). -/
def closePass (s : State) (p : Pass) : State := commitPass (runHeld s p) p.fpc p.next

/-- A completed group enters the pass's chunk; the chunk closes where it must (R158, R217). At a row boundary the sibling's clusters
change hands (R101). -/
def closeGroup (s : State) (c : Chunk) (p : Pass) : State :=
  let was := (s.t.pass.map Pass.first).getD 0
  let s1 := modT s fun t => { t with sealed := some c, pass := some p }
  let s2 := if was / 64 < p.first / 64 ∨ p.open.isEmpty = true then handOver s1 else s1
  if passFull s2 c p then closePass (if overOccupied c && !replaying s2 then bumpStat s2 4 1 else s2) p else s2

/-- Does the pass chunk hold more entries than its core can give (R275)? A group always finds room in a chunk of its own. -/
def passCapacity (s : State) (c : Chunk) : Bool :=
  !replaying s && decide (Nat.max 64 (entriesFor s (.passes s.cur)) < passEntries s.t - ((s.t.sealed.map fun c => c.lines.length).getD 0) + c.lines.length)

/-- Has the chunk of a reserving pass gone outside its slices (R287)? -/
def passOutside (s : State) (c : Chunk) : Bool :=
  s.t.passEffort.reserving && !((footprint c).all fun sl => s.held.contains (sl, passAgent s.cur))

/-- The first group under a reservation lies outside its slices: the pass gives them back, and reserves with them what that group needs before it
goes on (R287, R288). -/
def widenPass (s : State) (c : Chunk) : State :=
  { modT s fun t => { t with passEffort := t.passEffort.widened (footprint c) } with held := s.held.filter fun h => h.2 != passAgent s.cur }

/-- A group of cluster c faults as it would issue at a time: the pass stops there, and the time of the group is lost (R156, R218, R224). -/
def faultGroup (f : PassFault) (s0 : State) (p : Pass) (c k t0 : Nat) (nodes : List Node) : State :=
  let lost := if p.xq then p.lost.map (· + 16 * queueRate nodes)
    else p.lost.setIfInBounds c (p.lost.toList.getD c 0 + groupCost k nodes)
  passTrap (modT (useFree f.s) fun t =>
    { t with pass := some { p with lost := lost, watch := [] }, passCkpt := if s0.t.sealed.isNone then none else t.passCkpt })
    { cause := f.cause, addr := f.addr, blame := f.blame, stream := f.stream } f.toH t0

/-- The pass of the thread that moves works the next group of cluster c (R217): it is skipped, completes, is left for the next chunk, trims a
VLD.FF leaf, or stops the pass. A skipped group counts nothing toward the limit, which counts groups that a chunk completes (R273;
DESIGN CHOICE, log entry 107). A chunk that finds no entries for it closes, or waits where it has written nothing (R275). -/
def workGroup (s0 : State) (p00 : Pass) (c : Nat) : State :=
  let first := p00.at c
  let slips := slipsIn s0.t.a p00
  let t0 := p00.nextAt slips c
  let waited := p00.lost.toList.getD c 0 + ceilDiv (t0 - p00.issueAt c) 12
  let p0 := { p00 with clock := if slips then t0 else p00.clock, lost := p00.lost.setIfInBounds c waited }
  let k := Nat.max 1 (clustersHeld s0)
  let sc := passChunk s0 p0
  let rm := readMasks s0 p0 sc.2
  let p := rm.1
  let q := p.slide slips k c
  if p.skips first then closeGroup sc.1 rm.2 (q.after k c (q.tally.skip (q.place k c first)) false)
  else
    let g := planOf s0.t.a p
    match runElems (Work.start sc.1 rm.2 p.st g.nodes none) p g.parts g.nodes g.side g.caps first (Nat.min 16 (p.len - first)) with
    | .error f =>
      (match f.trim, p00.watchDue with
       | some (slot, n), _ => trimLeaf (useFree f.s) p slot n
       | none, some (tr, t) => if t ≤ t0 then passTrap s0 tr false t else faultGroup f s0 p c k t0 g.nodes
       | none, none => faultGroup f s0 p c k t0 g.nodes)
    | .ok w =>
      let c1 := w.close p first
      if passCapacity s0 c1 then
        (if (s0.t.sealed.map fun c => c.lines.isEmpty).getD true then { s0 with outOfTurn := true } else closePass (bumpStat s0 4 1) p00)
      else if passOutside s0 c1 then (if s0.t.sealed.isSome then closePass s0 p00 else widenPass s0 c1)
      else
        let thr := s0.t.a.cmpthr.toNat
        let els := w.els.reverse
        let q1 := { q with st := w.st, lost := q.lost.setIfInBounds c (q.lost.toList.getD c 0 + bankWaits w.seen),
                           watch := (groupWatch w.s p first (Nat.min 16 (p.len - first)) w.seen).toList ++ q.watch }
        closeGroup (raise w.s w.fl) c1 (q1.after k c (tallyGroup k q1 g.nodes thr first els) (!p.xq && !holdsGroup p thr els))

/-- The cluster whose group a pass of the thread that moves works next; none once all are done. -/
def pickFor (s : State) (p : Pass) : Option Nat := p.pick (slipsIn s.t.a p) (recordedEnd s p)

/-- Core cycles until the pass of the thread that moves has a group to issue, stops at a watched one, or comes to its end. -/
def passDue (s : State) (p : Pass) : Nat :=
  let n := p.dueIn (slipsIn s.t.a p) (pickFor s p) s.c
  match p.watchDue with
  | none => n
  | some x => Nat.min n (48 + ceilDiv x.2 12 - (s.c.cyc - p.began).toNat)

/-- Its pass reserves (R287); one that has waited for its slices goes on from here. -/
def reservePass (s : State) : State :=
  let e := s.t.passEffort
  if e.wanted.isEmpty || e.reserving || !slicesFree s e.wanted then s
  else takeSlices (modT s fun t => { t with passEffort := { e with reserving := true }, pass := t.pass.map fun p => p.waited s.c })
    (passAgent s.cur) e.wanted

/-- Can the pass of the thread that moves work a group: it has a cluster (R102), and the slices that it is to reserve (R287)? -/
def canWork (s : State) : Bool := holdsCluster s && (s.t.passEffort.wanted.isEmpty || s.t.passEffort.reserving)

/-- Is a watched group of the pass in flight of the thread that moves complete, so that it stops (R411, R412)? -/
def watchReady (s : State) : Bool := s.t.pass.any fun p => p.watchDue.any fun x => decide (x.2 ≤ p.now s.c)

/-- The next element group of the pass of the thread that moves, of cluster c. A pass whose thread holds no cluster waits for one (R102), and one
that is to reserve slices waits for them (R287). -/
def passGroup (s : State) (c : Nat) : State :=
  let s1 := reservePass s
  match s1.t.pass with
  | none => s1
  | some p =>
    if canWork s1 then workGroup s1 p c else s1

/-- R84's pairwise addition of accumulators: EMPTY adds nothing. -/
def accAdd (t : Nat) (ftz : Bool) (x y : Acc × BitVec 6) : Acc × BitVec 6 :=
  match x.1, y.1 with
  | none, _ => (y.1, x.2 ||| y.2)
  | _, none => (x.1, x.2 ||| y.2)
  | some a, some b => let r := redOp .add t ftz a b; (some r.1, x.2 ||| y.2 ||| r.2)

/-- The tree over n accumulators from index i: lane l with lane l + 1, then by pairs of pairs (R84). -/
def accTree (t : Nat) (ftz : Bool) (st : Saved) (i : Nat) : Nat → Acc × BitVec 6
  | 0 => (accAt st i, 0)
  | k + 1 => accAdd t ftz (accTree t ftz st i k) (accTree t ftz st (i + 2 ^ k) k)

/-- The lane that a reduction delivers with no active element (R203). -/
def redIdentity (op : RedOp) (t : Nat) : Lane :=
  match op with
  | .add => 0
  | .min => if tyFloat t then nan32.setWidth 64 else if tyInt t then wrapInt t (intMax t) else 1
  | .max => if tyFloat t then nan32.setWidth 64 else if tyInt t then wrapInt t (intMin t) else 0
  | .and => if tyFloat t then nan32.setWidth 64 else if tyInt t then wrapInt t (-1) else 1
  | .or | .xor => if tyFloat t then nan32.setWidth 64 else 0

/-- The value of a reduction and the flags of its last additions (R84, R203). -/
def redValue (op : RedOp) (t : Nat) (ftz : Bool) (st : Saved) : Lane × BitVec 6 :=
  if laneSum op t then
    let r := accTree t ftz st 0 6
    (match r.1 with
     | none => 0
     | some v => if (readF32 (v.setWidth 32)).isNan then nan32.setWidth 64 else v, r.2)
  else ((accAt st 0).getD (redIdentity op t), 0)

/-- What X[D] receives (R203): an integer extended by its signedness, a floating-point code, or a mask's value. -/
def redWord (t : Nat) (l : Lane) : Word :=
  if tyFloat t then wd (codeOf t l) else if tyInt t then BitVec.ofInt 64 (patInt t l) else l

/-- The pass is complete: the forcing instruction's destinations are written (R148, R161, R203, R204). -/
def deliverSink (s : State) (p : Pass) (k : Sink) : State :=
  let v := k.srcs.headD Val.empty
  match k.kind with
  | .reduce op d withIdx =>
    let r := redValue op v.ty p.ftz p.st
    let s1 := wr (raise s r.2) d (redWord v.ty r.1)
    if withIdx then wr s1 (pairOf d) (if (accAt p.st 0).isNone then 0xFFFFFFFFFFFFFFFF else wd p.st.idx) else s1
  | .capture base reg => modA s fun a =>
    if 64 ≤ reg then a else nameReg a reg { regVal a reg with ref := .capt base }
  | .resident reg =>
    let l := (((p.st.lanes.find? fun q => q.1 == reg).map Prod.snd).getD []).reverse
    modA s fun a => nameReg a reg { ref := .res l, len := k.len, ty := v.ty, blame := Blame.zero }
  | _ => s

/-- The nodes that the captures of a pass have taken for the rest of its instruction (R146). -/
def Pass.newCuts (p : Pass) : List (Nat × Word × Nat) :=
  p.sinks.filterMap fun k => match k.kind with
    | .capture b reg => if 64 ≤ reg then some (reg - 64, b, regionSize (k.srcs.headD Val.empty)) else none
    | _ => none

/-- USEFUL and MASKED slots of the groups from one state of a pass to a later one, by cluster (R223). -/
def slotsBetween (p q : Pass) : Vector (Nat × Nat) 4 :=
  let u := p.tally.slots
  q.tally.slots.mapIdx fun c x => (x.1 - (u.toList.getD c (0, 0)).1, x.2 - (u.toList.getD c (0, 0)).2)

/-- Does the last chunk of a pass wait to commit once the pass is over (R148)? One that writes nothing and sends nothing, or that holds its
slices, commits at once; so does one with captures, which complete before the write that has asked for them (R149), and one while that of an
earlier pass still waits. -/
def Thread.sealsLast (t : Thread) (p : Pass) : Bool :=
  t.redo.isNone && !t.passEffort.reserving && t.passCkpt.isSome && !(p.sinks.any Sink.isCapture) &&
  (t.sealed.map fun c => !(c.writes.isEmpty && c.out.isEmpty)).getD false

/-- The last chunk of a pass is sealed and waits, or commits (R148, R158, R159). -/
def sealLast (s : State) (p : Pass) : State :=
  match s.t.sealsLast p, s.t.passCkpt, s.t.sealed with
  | true, some (q, f), some c =>
    let r : Redo :=
      { a := cutArch s.t.a p.st.cuts, p := { q with skipped := p.skipped, len := p.len, sinks := p.sinks }, stop := p.next, chunk := some c, kept := c.used,
        lvl := s.t.lvl, flags := s.t.a.fstat, slots := slotsBetween q p, rest := none, effort := s.t.passEffort, vs := false, vv := false }
    { modT s fun t => { t with redo := some r, sealed := none, passCkpt := none, a := { t.a with fstat := f },
                               passEffort := { Effort.zero with streak := t.passEffort.streak } } with
      agenda := s.agenda ++ [.event (.chunkCommit (passAgent s.cur))] }
  | _, _, _ => commitPass s p.fpc p.next

/-- The pass ends (R148, R220): its last chunk is sealed, VRS becomes zero, and the forcing instruction completes, or runs again
where the pass only prepared it. -/
def endPass (s : State) : State :=
  match s.t.pass with
  | none => s
  | some p =>
    let s1 := handOver (sealLast (chargeLanes s p) p)
    let s2 := p.sinks.foldl (fun s k => deliverSink s p k) (modT s1 fun t => { t with pass := none, passCkpt := none })
    let first := fresh s.t.a
    let s3 := modA s2 fun a => { a with vrs := Vector.replicate 4 0, saved := if first then a.saved else none,
                                        inner := if p.completes then [] else p.st.cuts ++ p.newCuts }
    rebase (if p.completes then setPc s3 (p.fpc + 4) else modT s3 fun t => { t with prepared := true })

/-- The slots of a pass chunk that has run again, from one state of its pass to a later one, are charged (R223, R224): 16 for each cluster and cycle,
those of waits for a physical cluster or in lockstep STALLED. -/
def chargeAgain (s : State) (p q : Pass) : State :=
  let len := ((List.range 4).map (p.spent q)).foldl Nat.max 0
  let lane (i : Nat) : LaneTime :=
    let x := p.tally.lane i
    let y := q.tally.lane i
    let w := { LaneWork.zero with useful := y.useful - x.useful, masked := y.masked - x.masked }
    let ends := if q.xq then (if q.first ≤ i then 0 else q.rate * ((q.first - 1 - i) / 64 * 64 + i + 1 - p.first)) else ceilDiv (y.span - x.span) 12
    laneTime w len (if w.useful + w.masked = 0 then 0 else ends) false
  (List.range 4).foldl (fun s c =>
    let sum (f : LaneTime → Nat) : Word := wd (((List.range 16).map fun l => f (lane (16 * c + l))).foldl (· + ·) 0)
    addLane (addLane (addLane (addLane s c 0 (sum LaneTime.useful)) c 1 (sum LaneTime.masked)) c 4 (sum LaneTime.wait)) c 2
      (sum LaneTime.beyond)) s

/-- The slices of the passes of the thread that moves are given back. -/
def freeRedo (s : State) : State := { s with held := s.held.filter fun h => h.2 != passAgent s.cur }

/-- A squashed chunk of a completed pass runs again (R158, R159): its groups are evaluated in the state that the pass had, at its level, with the
translations that the chunk has kept; under a limit that has been halved, or at an access outside its reservation, it closes before its end (R287). Where
the re-run meets an error the thread has a fatal trap at its next boundary; so it has where the re-run demands a page that the chunk has not kept and
meets another fault there (DESIGN CHOICE, log entry 138). A reduction's destination keeps what the pass has delivered (DESIGN CHOICE, log entry
24). -/
def rerun (s : State) (r : Redo) : State :=
  let s0 := modT s fun t => { t with a := { r.a with fstat := 0 }, lvl := r.lvl }
  let g := planOf r.a r.p
  let back (x : State) : State := modT x fun t => { t with a := s.t.a, lvl := s.t.lvl }
  let mine := (s.held.filter fun h => h.2 == passAgent s.cur).map Prod.fst
  let bar (c : Chunk) : Bool := !mine.isEmpty && !((footprint c).all fun sl => mine.contains sl)
  match workAgain (Nat.max 1 (clustersHeld s)) r.a.cmpthr.toNat g bar (passFull s) r.p
      (Work.start s0 (Chunk.empty r.p.fpc r.p.chunks) r.p.st g.nodes (some r.kept)) (groupsBetween r.p.next r.stop r.p.len) with
  | .error f => modT (freeRedo (back f.s)) fun t =>
      { t with redo := none, deferred := some { cause := f.cause, addr := f.addr, blame := f.blame, stream := f.stream } }
  | .ok (w, q, out) =>
    match out, decide (w.c.count = 0) with
    | some c, true => modT (freeRedo (back w.s)) fun t => { t with redo := some { r with effort := r.effort.widened (footprint c) } }
    | _, _ => modT (chargeAgain (back w.s) r.p q) fun t => { t with redo := some { r with
        chunk := some w.c, flags := w.fl, slots := slotsBetween r.p q,
        rest := if q.next = r.stop then none else some { q with st := w.st, chunks := q.chunks + 1, ends := [], watch := [] } } }

/-- The slices that a squashed chunk of a completed pass is to reserve before it runs again (R287). -/
def reserveRedo (s : State) (r : Redo) : State :=
  if r.effort.wanted.isEmpty then s
  else if !slicesFree s r.effort.wanted then { s with outOfTurn := true }
  else takeSlices s (passAgent s.cur) r.effort.wanted

/-- The chunk of a completed pass of the thread that moves commits, run again first where it has been squashed. -/
def settleStep (s : State) : State :=
  match s.t.redo with
  | none => s
  | some r => commitSealed (if r.chunk.isSome then s else rerun (reserveRedo s r) r)

/-- Such steps until nothing is left of the pass. -/
def settlePassFuel : Nat → State → State
  | 0, s => s
  | n + 1, s => if s.t.redo.isNone then s else settlePassFuel n (settleStep s)

/-- The last chunk of a completed pass of the thread that moves commits, run again first where it has been squashed, in several chunks where it has
to (R287): one for each group at most, and a wider reservation for each slice. -/
def settleSealed (s : State) : State :=
  match s.t.redo with
  | none => s
  | some r => settlePassFuel (r.p.len / 16 + 20) s

/-- Has the last completed pass a chunk that is to run again? -/
def Thread.dropped (t : Thread) : Bool := t.redo.any fun r => r.chunk.isNone

/-- The extents of the streams of a pass that are not indexed, its leaves' and its sinks' (R298). -/
def plainStreams (a : Arch) (p : Pass) : List Extent :=
  let m := reach a (p.sinks.map Sink.vals).flatten
  ((a.leaves.filter fun l => m.slots.contains l.slot).filterMap fun l => match l.lay with
    | .indexed _ => none
    | _ => some l.extent) ++
  p.sinks.filterMap fun k => match k.kind with
    | .store _ (.indexed _) => none
    | .store base lay => some (extentOf base lay (k.srcs.headD Val.empty).ty k.len)
    | .capture base _ => some (extentOf base .unit (k.srcs.headD Val.empty).ty k.len)
    | _ => none

/-- Is a pass ordered after the last completed one (R298, R301): after a FENCE.VV, or where streams that are not indexed overlap? -/
def followsPass (s : State) (r : Redo) (p : Pass) : Bool :=
  r.vv || (plainStreams r.a r.p).any fun x => (plainStreams s.t.a p).any fun y => x.meets 1 y

/-- Does the chunk of the pass before a pass commit, or run again, before its next step: the two are ordered, or this one is to reserve (R287,
R298)? -/
def settlesFirst (s : State) (p : Pass) : Bool :=
  (s.t.redo.any fun r => followsPass s r p || !s.t.passEffort.wanted.isEmpty || replaying s) || s.t.dropped

/-- The next step of a pass: the chunk of the pass before it commits first where the two are ordered (R298), or that one has to run again; then a
watched group that is complete stops the pass (R411, R412), the groups that have begun by then apart, a group is worked, or the pass ends. -/
def passStep (s : State) : State :=
  match s.t.pass with
  | none => s
  | some p =>
    let c := pickFor s p
    if settlesFirst s p then settleSealed s
    else match p.watchDue with
      | some (tr, t) =>
        (match c with
         | some i => if p.nextAt (slipsIn s.t.a p) i ≤ t && canWork s then passGroup s i else passTrap s tr false t
         | none => passTrap s tr false t)
      | none => match c with
        | some i => passGroup s i
        | none => if 0 < passDue s p then s else endPass s

/-- Steps of a pass until it has ended or stopped. -/
def passFuel : Nat → State → State
  | 0, s => s
  | n + 1, s => if s.t.pass.isNone then s else passFuel n (passStep s)

/-- The pass of the thread that moves runs to its end or to a stop (R148): a group for each 16 elements, a trim for each leaf
at most, the closings, and the end. Where it has to wait, for the cycles that its lanes take among others, it is left as it is. -/
def runPass (s : State) : State :=
  match s.t.pass with
  | none => s
  | some p => passFuel (p.len / 8 + 18) s

/-- An agent gives its slices back and is to reserve them again before it executes again (R287). -/
def pauseHold (s : State) (agent : Nat) : State :=
  let s1 := { s with held := s.held.filter fun h => h.2 != agent }
  if agent < 1048576 then onThread s1 agent fun s => modT s fun t => { t with reserving := false }
  else if agent < 2097152 then
    onThread s1 (agent - 1048576) fun s => modT s fun t => { t with passEffort := { t.passEffort with reserving := false } }
  else
    onThread s1 ((agent - 2097152) / 16) fun s =>
      modEngine s (agent % 16) fun e => { e with effort := { e.effort with reserving := false } }

/-- A reservation whose agent cannot go on ends (R288): its chunk commits, or the slices are given back where it has done nothing. -/
def endHold (s : State) (agent : Nat) : State :=
  if agent < 1048576 then
    (let t := threadAt s agent
     if t.chunk.idle && t.closed.isNone then pauseHold s agent else onThread s agent commitOpen)
  else if agent < 2097152 then
    (match (threadAt s (agent - 1048576)).pass with
     | none => onThread s (agent - 1048576) settleSealed
     | some p => if (threadAt s (agent - 1048576)).sealed.isSome then onThread s (agent - 1048576) fun s => closePass s p
       else pauseHold s agent)
  else
    match s.engines.find? fun e => engineAgent e.tid e.k = agent with
    | none => pauseHold s agent
    | some e => match e.chunk with
      | some c => onThread s e.tid fun s => commitEngine s e c
      | none => pauseHold s agent

end Sys2Proof.Machine
end

