-- ==== Sys2Proof/Machine/Scalar.lean ====
section
/-! DEFINITION. Machine/Scalar.lean: the scalar instructions on x registers and the program counter (R105 to R117). -/

namespace Sys2Proof.Machine

open Sys2Proof

/-- An operation of two registers into a third (R106, R107): operands are read before X[D] is written. -/
def binOp (f : Word → Word → Word) (d a b : Reg) (s : State) : Host.Outcome State Fault Refusal :=
  .next (complete (wr s d (f (rd s a) (rd s b))))

/-- A division (R108): a zero divisor gives all ones and sets DZ. -/
def divOp (f : Word → Word → Word) (d a b : Reg) (s : State) : Host.Outcome State Fault Refusal :=
  if rd s b = 0 then .next (complete (wr (raiseDZ s) d 0xFFFFFFFFFFFFFFFF))
  else .next (complete (wr s d (f (rd s a) (rd s b))))

/-- The shift or rotate count of a register (R107). -/
def shiftCount (b : Word) : Nat := b.toNat % 64

/-- Bits [127:64] of a product of integers (R107). -/
def highPart (p : Int) : Word := BitVec.ofInt 64 (p / 18446744073709551616)

/-- Floor of S(v) / 2^k, wrapped (R107). -/
def sraWord (v : Word) (k : Nat) : Word := BitVec.ofInt 64 (v.toInt / (2 ^ k : Nat))

/-- Rotate right (R107). -/
def rorWord (v : Word) (k : Nat) : Word := (v >>> k) ||| (v <<< ((64 - k) % 64))

/-- Truncating quotient of signed values, wrapped (R108). -/
def sdivWord (a b : Word) : Word := BitVec.ofInt 64 (a.toInt.tdiv b.toInt)

/-- Signed remainder: its sign follows the dividend (R108). -/
def sremWord (a b : Word) : Word := BitVec.ofInt 64 (a.toInt.tmod b.toInt)

/-- ADD (R107). -/
def execAdd (d a b : Reg) (s : State) : Host.Outcome State Fault Refusal := binOp (fun x y => x + y) d a b s
/-- SUB (R107). -/
def execSub (d a b : Reg) (s : State) : Host.Outcome State Fault Refusal := binOp (fun x y => x - y) d a b s
/-- MUL (R107). -/
def execMul (d a b : Reg) (s : State) : Host.Outcome State Fault Refusal := binOp (fun x y => x * y) d a b s
/-- MULH (R107). -/
def execMulh (d a b : Reg) (s : State) : Host.Outcome State Fault Refusal :=
  binOp (fun x y => highPart (x.toInt * y.toInt)) d a b s
/-- MULHU (R107). -/
def execMulhu (d a b : Reg) (s : State) : Host.Outcome State Fault Refusal :=
  binOp (fun x y => wd (x.toNat * y.toNat / 18446744073709551616)) d a b s
/-- DIV (R108). -/
def execDiv (d a b : Reg) (s : State) : Host.Outcome State Fault Refusal := divOp sdivWord d a b s
/-- DIVU (R108). -/
def execDivu (d a b : Reg) (s : State) : Host.Outcome State Fault Refusal :=
  divOp (fun x y => wd (x.toNat / y.toNat)) d a b s
/-- REM (R108). -/
def execRem (d a b : Reg) (s : State) : Host.Outcome State Fault Refusal := divOp sremWord d a b s
/-- REMU (R108). -/
def execRemu (d a b : Reg) (s : State) : Host.Outcome State Fault Refusal :=
  divOp (fun x y => wd (x.toNat % y.toNat)) d a b s
/-- AND (R107). -/
def execAnd (d a b : Reg) (s : State) : Host.Outcome State Fault Refusal := binOp (fun x y => x &&& y) d a b s
/-- OR (R107). -/
def execOr (d a b : Reg) (s : State) : Host.Outcome State Fault Refusal := binOp (fun x y => x ||| y) d a b s
/-- XOR (R107). -/
def execXor (d a b : Reg) (s : State) : Host.Outcome State Fault Refusal := binOp (fun x y => x ^^^ y) d a b s
/-- ANDN (R107). -/
def execAndn (d a b : Reg) (s : State) : Host.Outcome State Fault Refusal := binOp (fun x y => x &&& ~~~y) d a b s
/-- ORN (R107). -/
def execOrn (d a b : Reg) (s : State) : Host.Outcome State Fault Refusal := binOp (fun x y => x ||| ~~~y) d a b s
/-- SLL (R107). -/
def execSll (d a b : Reg) (s : State) : Host.Outcome State Fault Refusal := binOp (fun x y => x <<< shiftCount y) d a b s
/-- SRL (R107). -/
def execSrl (d a b : Reg) (s : State) : Host.Outcome State Fault Refusal := binOp (fun x y => x >>> shiftCount y) d a b s
/-- SRA (R107). -/
def execSra (d a b : Reg) (s : State) : Host.Outcome State Fault Refusal :=
  binOp (fun x y => sraWord x (shiftCount y)) d a b s
/-- ROR (R107). -/
def execRor (d a b : Reg) (s : State) : Host.Outcome State Fault Refusal :=
  binOp (fun x y => rorWord x (shiftCount y)) d a b s
/-- MIN (R107). -/
def execMin (d a b : Reg) (s : State) : Host.Outcome State Fault Refusal :=
  binOp (fun x y => if y.toInt < x.toInt then y else x) d a b s
/-- MAX (R107). -/
def execMax (d a b : Reg) (s : State) : Host.Outcome State Fault Refusal :=
  binOp (fun x y => if x.toInt < y.toInt then y else x) d a b s
/-- MINU (R107). -/
def execMinu (d a b : Reg) (s : State) : Host.Outcome State Fault Refusal :=
  binOp (fun x y => if y.toNat < x.toNat then y else x) d a b s
/-- MAXU (R107). -/
def execMaxu (d a b : Reg) (s : State) : Host.Outcome State Fault Refusal :=
  binOp (fun x y => if x.toNat < y.toNat then y else x) d a b s
/-- SLT (R107). -/
def execSlt (d a b : Reg) (s : State) : Host.Outcome State Fault Refusal :=
  binOp (fun x y => if x.toInt < y.toInt then 1 else 0) d a b s
/-- SLTU (R107). -/
def execSltu (d a b : Reg) (s : State) : Host.Outcome State Fault Refusal :=
  binOp (fun x y => if x.toNat < y.toNat then 1 else 0) d a b s

/-- An operation of one register into another (R109 to R111, R114). -/
def unOp (f : Word → Word) (d a : Reg) (s : State) : Host.Outcome State Fault Refusal :=
  .next (complete (wr s d (f (rd s a))))

/-- ADDI (R109). -/
def execAddi (d a : Reg) (i : BitVec 16) (s : State) : Host.Outcome State Fault Refusal :=
  unOp (fun x => x + i.signExtend 64) d a s
/-- ANDI (R109). -/
def execAndi (d a : Reg) (i : BitVec 16) (s : State) : Host.Outcome State Fault Refusal :=
  unOp (fun x => x &&& i.signExtend 64) d a s
/-- ORI (R109). -/
def execOri (d a : Reg) (i : BitVec 16) (s : State) : Host.Outcome State Fault Refusal :=
  unOp (fun x => x ||| i.signExtend 64) d a s
/-- XORI (R109). -/
def execXori (d a : Reg) (i : BitVec 16) (s : State) : Host.Outcome State Fault Refusal :=
  unOp (fun x => x ^^^ i.signExtend 64) d a s
/-- SLLI (R110). -/
def execSlli (d a : Reg) (k : BitVec 6) (s : State) : Host.Outcome State Fault Refusal :=
  unOp (fun x => x <<< k.toNat) d a s
/-- SRLI (R110). -/
def execSrli (d a : Reg) (k : BitVec 6) (s : State) : Host.Outcome State Fault Refusal :=
  unOp (fun x => x >>> k.toNat) d a s
/-- SRAI (R110). -/
def execSrai (d a : Reg) (k : BitVec 6) (s : State) : Host.Outcome State Fault Refusal :=
  unOp (fun x => sraWord x k.toNat) d a s
/-- SLTI (R111). -/
def execSlti (d a : Reg) (i : BitVec 15) (s : State) : Host.Outcome State Fault Refusal :=
  unOp (fun x => if x.toInt < (i.signExtend 64).toInt then 1 else 0) d a s
/-- SLTIU (R111). -/
def execSltiu (d a : Reg) (i : BitVec 15) (s : State) : Host.Outcome State Fault Refusal :=
  unOp (fun x => if x.toNat < (i.signExtend 64).toNat then 1 else 0) d a s
/-- LUI (R112): imm16 × 2^16, sign-extended from 32 bits. -/
def execLui (d : Reg) (i : BitVec 16) (s : State) : Host.Outcome State Fault Refusal :=
  .next (complete (wr s d (i.signExtend 64 <<< 16)))
/-- ADDPC (R112). -/
def execAddpc (d : Reg) (i : BitVec 16) (s : State) : Host.Outcome State Fault Refusal :=
  .next (complete (wr s d (wd s.t.a.pc + (i.signExtend 64 <<< 16))))

/-- Zero bits above the highest 1 bit; 64 for 0 (R114). -/
def clzWord (v : Word) : Nat := if v = 0 then 64 else 63 - Nat.log2 v.toNat

/-- Zero bits below the lowest 1 bit of a number of at most n bits (R114). -/
def ctzFrom : Nat → Nat → Nat
  | 0, _ => 0
  | n + 1, v => if v % 2 = 1 then 0 else 1 + ctzFrom n (v / 2)

/-- 1 bits among the lowest n of a number (R114). -/
def popFrom : Nat → Nat → Nat
  | 0, _ => 0
  | n + 1, v => v % 2 + popFrom n (v / 2)

/-- CLZ (R114). -/
def execClz (d a : Reg) (s : State) : Host.Outcome State Fault Refusal := unOp (fun x => wd (clzWord x)) d a s
/-- CTZ (R114). -/
def execCtz (d a : Reg) (s : State) : Host.Outcome State Fault Refusal := unOp (fun x => wd (ctzFrom 64 x.toNat)) d a s
/-- POPC (R114). -/
def execPopc (d a : Reg) (s : State) : Host.Outcome State Fault Refusal := unOp (fun x => wd (popFrom 64 x.toNat)) d a s

/-- Sign-extend bits [n:0] (R114). -/
def sextWord (v : Word) (n : Nat) : Word := (BitVec.ofNat (n + 1) v.toNat).signExtend 64

/-- Zero-extend bits [n:0] (R114). -/
def zextWord (v : Word) (n : Nat) : Word := wd (v.toNat % 2 ^ (n + 1))

/-- SEXT (R114). -/
def execSext (d a n : Reg) (s : State) : Host.Outcome State Fault Refusal := unOp (fun x => sextWord x n.toNat) d a s
/-- ZEXT (R114). -/
def execZext (d a n : Reg) (s : State) : Host.Outcome State Fault Refusal := unOp (fun x => zextWord x n.toNat) d a s

/-- Reverse the bytes (R114). -/
def bswapWord (v : Word) : Word := wd (bytesNat (leBytes 8 v.toNat).reverse)

/-- BSWAP (R114). -/
def execBswap (d a : Reg) (s : State) : Host.Outcome State Fault Refusal := unOp bswapWord d a s

/-- LEA (R114): xa is read and written. -/
def execLea (sh a b : Reg) (s : State) : Host.Outcome State Fault Refusal :=
  .next (complete (wr s a (rd s a + (rd s b <<< sh.toNat))))

/-- INSH (R114): the field at p of width w; a width of 0 changes nothing and a field is cut at bit 63. -/
def inshWord (old v ctl : Word) : Word :=
  let p := ctl.toNat % 64
  let w := Nat.min (fld ctl 8 7) (64 - p)
  let k : Word := wd ((2 ^ w - 1) * 2 ^ p)
  (old &&& ~~~k) ||| ((v <<< p) &&& k)

/-- INSH (R114). -/
def execInsh (d a b : Reg) (s : State) : Host.Outcome State Fault Refusal :=
  .next (complete (wr s d (inshWord (rd s d) (rd s a) (rd s b))))

/-- CSEL (R114): X[D] is unchanged where X[B] is zero. -/
def execCsel (d a b : Reg) (s : State) : Host.Outcome State Fault Refusal :=
  .next (complete (if rd s b = 0 then s else wr s d (rd s a)))

/-- The target of a PC-relative offset of words (R30). -/
def relTarget (pc : Nat) (off : Int) : Nat := (BitVec.ofInt 64 ((pc : Int) + 4 * off)).toNat

/-- A compare-and-branch (R115). -/
def condBranch (c : Word → Word → Bool) (a b : Reg) (o : BitVec 16) (s : State) : Host.Outcome State Fault Refusal :=
  .next (if c (rd s a) (rd s b) then branchTo s (relTarget s.t.a.pc o.toInt) else complete s)

/-- BEQ (R115). -/
def execBeq (a b : Reg) (o : BitVec 16) (s : State) : Host.Outcome State Fault Refusal :=
  condBranch (fun x y => x == y) a b o s
/-- BNE (R115). -/
def execBne (a b : Reg) (o : BitVec 16) (s : State) : Host.Outcome State Fault Refusal :=
  condBranch (fun x y => x != y) a b o s
/-- BLT (R115). -/
def execBlt (a b : Reg) (o : BitVec 16) (s : State) : Host.Outcome State Fault Refusal :=
  condBranch (fun x y => decide (x.toInt < y.toInt)) a b o s
/-- BGE (R115). -/
def execBge (a b : Reg) (o : BitVec 16) (s : State) : Host.Outcome State Fault Refusal :=
  condBranch (fun x y => decide (y.toInt ≤ x.toInt)) a b o s
/-- BLTU (R115). -/
def execBltu (a b : Reg) (o : BitVec 16) (s : State) : Host.Outcome State Fault Refusal :=
  condBranch (fun x y => decide (x.toNat < y.toNat)) a b o s
/-- BGEU (R115). -/
def execBgeu (a b : Reg) (o : BitVec 16) (s : State) : Host.Outcome State Fault Refusal :=
  condBranch (fun x y => decide (y.toNat ≤ x.toNat)) a b o s

/-- JAL (R116). -/
def execJal (d : Reg) (o : BitVec 21) (s : State) : Host.Outcome State Fault Refusal :=
  .next (branchTo (wr s d (wd (s.t.a.pc + 4))) (relTarget s.t.a.pc o.toInt))

/-- JALR (R116): X[A] is read before X[D] is written; a target that is not a multiple of 4 traps with both unchanged. -/
def execJalr (d a : Reg) (i : BitVec 16) (s : State) : Host.Outcome State Fault Refusal :=
  let t := rd s a + i.signExtend 64
  .next (if t.toNat % 4 ≠ 0 then trapHere s 2 t else branchTo (wr s d (wd (s.t.a.pc + 4))) t.toNat)

/-- JTAB (R117): guarded jump through a table of signed 32-bit offsets; its entry read is a scalar load. -/
def execJtab (d a b : Reg) (s : State) : Host.Outcome State Fault Refusal :=
  .next (
    if (rd s b).toNat ≤ (rd s d).toNat then complete s
    else aligned s (rd s a) 4 fun s =>
      let ea := rd s a + wd (4 * (rd s d).toNat)
      match loadNat s ea 4 with
      | (s1, .error f) => fltTrap s1 f
      | (s1, .ok v) =>
        let t := rd s1 a + (BitVec.ofNat 32 v).signExtend 64
        if t.toNat % 4 ≠ 0 then trapHere s1 2 t else afterAccess (branchTo s1 t.toNat) ea 4 true false)

end Sys2Proof.Machine
end

