-- ==== Sys2Proof/Machine/Memory.lean ====
section
/-! DEFINITION. Machine/Memory.lean: scalar loads and stores (R118 to R124), chunk control (R290 to R292), fences, acquire
and release, WAITV and the atomics (R299 to R310). -/

namespace Sys2Proof.Machine

open Sys2Proof

/-- Before an instruction that commits its chunk and then asks a unit, or makes an access, in a chunk of its own: device-register writes of the thread's own uncommitted chunks commit and act
first (R378), and the instruction runs after them. -/
def settled (s : State) (f : State → State) : State :=
  if writesDevices s then commitOpen s else f s

/-- Bytes of a size field (R118). -/
def sizeOf2 (s : BitVec 2) : Nat := 2 ^ s.toNat

/-- The word that a load of n bytes delivers (R118): sign-extended, or zero-extended. -/
def extendTo (n v : Nat) (zero : Bool) : Word := if zero then wd v else (BitVec.ofNat (8 * n) v).signExtend 64

/-- A scalar load of n bytes (R118, R119). -/
def loadOp (d : Reg) (ea : Word) (n : Nat) (zero : Bool) (s : State) : State :=
  aligned s ea n fun s =>
    match loadNat s ea n with
    | (s1, .error f) => fltTrap s1 f
    | (s1, .ok v) => afterAccess (complete (wr s1 d (extendTo n v zero))) ea n true false

/-- Before a scalar write that would not fault, the registers that depend on an overlapped leaf are captured (R122, R308);
the write acts after the capture pass. A write that faults captures nothing (DESIGN CHOICE, log entry 127). -/
def writeGuard (s : State) (kind : Kind) (ea : Word) (n : Nat) (f : State → State) : State :=
  match lookup s (who s) kind ea with
  | .error _ => f s
  | .ok _ => capturedFirst s (overlapped s ea n) f

/-- A scalar store of the low n bytes of a register (R118, R119, R122), with what follows its completion. -/
def storeThen (d : Reg) (ea : Word) (n : Nat) (after : State → State) (s : State) : State :=
  writeGuard s .write ea n fun s =>
    match storeNat s ea n ((rd s d).toNat % 2 ^ (8 * n)) with
    | (s1, .error f) => fltTrap s1 f
    | (s1, .ok _) => afterAccess (after (complete s1)) ea n false true

/-- A scalar store (R118, R119). -/
def storeOp (d : Reg) (ea : Word) (n : Nat) (s : State) : State := aligned s ea n (storeThen d ea n id)

/-- The address of LD and ST (R118). -/
def offsetAddr (s : State) (a : Reg) (i : BitVec 13) : Word := rd s a + i.signExtend 64

/-- The address of LDX and STX (R120). -/
def indexedAddr (s : State) (a b : Reg) (n : Nat) : Word := rd s a + rd s b * wd n

/-- LD (R118). -/
def execLd (d a : Reg) (i : BitVec 13) (sz : BitVec 2) (n : BitVec 1) (s : State) : Host.Outcome State Fault Refusal :=
  .next (loadOp d (offsetAddr s a i) (sizeOf2 sz) (n == 1) s)
/-- ST (R118). -/
def execSt (d a : Reg) (i : BitVec 13) (sz : BitVec 2) (s : State) : Host.Outcome State Fault Refusal :=
  .next (storeOp d (offsetAddr s a i) (sizeOf2 sz) s)
/-- LDX (R120). -/
def execLdx (d a b : Reg) (n : BitVec 1) (sz : BitVec 2) (s : State) : Host.Outcome State Fault Refusal :=
  .next (loadOp d (indexedAddr s a b (sizeOf2 sz)) (sizeOf2 sz) (n == 1) s)
/-- STX (R120). -/
def execStx (d a b : Reg) (sz : BitVec 2) (s : State) : Host.Outcome State Fault Refusal :=
  .next (storeOp d (indexedAddr s a b (sizeOf2 sz)) (sizeOf2 sz) s)
/-- PREF (R121, R350): no effect but one: where its address does not translate for a read, the tenant's dropped translations are one more. Every error
of the look-up counts, a frame in transit and a poisoned table entry too (DESIGN CHOICE, log entry 137). -/
def execPref (a : Reg) (s : State) : Host.Outcome State Fault Refusal :=
  .next (complete (match lookup s (who s) .read (rd s a) with
    | .error _ => devBump s (paCount s.t.vfid 24)
    | .ok _ => s))

/-- A fence of a kind (R301): SV 0, VS 1, VV 2, ALL 3. It closes no chunk and stalls nothing: what it governs waits later. A leaf is read when
its pass runs, after the thread's chunks, so of the vector reads SV concerns those of MLDW alone. A steward has no vector side. -/
def fence (k : BitVec 2) (s : State) : State :=
  if isSteward s.cur then s
  else
    let mark (r : Redo) : Redo := { r with vs := r.vs || k == 1 || k == 3, vv := r.vv || k == 2 || k == 3 }
    modT (if k = 0 ∨ k = 3 then fenceStores s else s) fun t => { t with redo := t.redo.map mark }

/-- FENCE (R301). -/
def execFence (k : BitVec 2) (s : State) : Host.Outcome State Fault Refusal := .next (complete (fence k s))

/-- CHUNKEND (R290): the chunk ends after it and its commit is not waited for. -/
def execChunkend (s : State) : Host.Outcome State Fault Refusal := .next (closeLater (complete s))

/-- CHUNKLIM (R291): the boundary that follows closes the chunk where the new limit is reached. -/
def execChunklim (d a : Reg) (s : State) : Host.Outcome State Fault Refusal :=
  let old := s.t.a.chkLim
  let new := Nat.max 1 (Nat.min (rd s a).toNat old)
  .next (complete (wr (modA s fun r =>
    { r with chkLim := new, chkEff := Nat.min r.chkEff new, chkNext := r.chkNext.map fun e => Nat.min e new }) d (wd old)))

/-- WAITV (R306): its chunk closes after it; where the doubleword is unchanged the thread stalls until its line is written, its chunk waiting
to commit, and a squash reads again. A data watchpoint that matches the read takes the thread to the instruction's successor (R411), an
unchanged doubleword or not (DEDUCED, log entry 108). -/
def execWaitv (a b : Reg) (s : State) : Host.Outcome State Fault Refusal :=
  let ea := rd s a
  .next (aligned s ea 8 fun s =>
    match translate s (who s) .read ea with
    | (s1, .error f) => fltTrap s1 f
    | (s1, .ok k) => match readPlace s1 k 8 with
      | (s2, .error c) => fltTrap s2 (flt c ea)
      | (s2, .ok v) =>
        if wd v ≠ rd s2 b then
          (let s3 := complete s2
           afterAccess (commitOpen s3) ea 8 true false)
        else
          if watched s2 ea 8 true false then afterAccess (commitOpen (complete s2)) ea 8 true false
          else modT (closeLater (countOne s2)) fun t => { t with stall := .waitv (k / 64) false })

/-- LDAQ (R305): loads as LD does, sign-extending; a later vector read has its point no earlier than its chunk, whose stores so far it sees.
LDAQ.DOM also commits its chunk. -/
def execLdaq (d a : Reg) (c sz : BitVec 2) (s : State) : Host.Outcome State Fault Refusal :=
  let ea := rd s a
  let n := sizeOf2 sz
  .next (aligned s ea n fun s =>
    match loadNat s ea n with
    | (s1, .error f) => fltTrap s1 f
    | (s1, .ok v) =>
      let s2 := complete (wr (acquire s1) d (extendTo n v false))
      afterAccess (if c = 2 then commitOpen s2 else s2) ea n true false)

/-- STRL (R304): FENCE.ALL and a store. STRL.DEV waits first until every earlier pass has committed; STRL.DOM commits the chunk before it, waits
for the acknowledgements of remote writes, does the same, and commits its own chunk. -/
def execStrl (d a : Reg) (c sz : BitVec 2) (s : State) : Host.Outcome State Fault Refusal :=
  let ea := rd s a
  let n := sizeOf2 sz
  .next (aligned s ea n fun s =>
    if c = 2 then
      settled s fun s =>
        let s1 := settleSealed (commitOpen s)
        if s1.t.unacked ≠ 0 then modT s1 fun t => { t with stall := .acks }
        else storeThen d ea n commitOpen (fence 3 s1)
    else storeThen d ea n id (fence 3 (if c = 1 then settleSealed s else s)))

/-- Bytes of an AMO (R307). -/
def amoSize (q : BitVec 1) (sz : BitVec 2) : Nat := if q = 1 then 16 else sizeOf2 sz

/-- The operand of an AMO, or its expected value (R308): the low n bytes of a register, or of a pair. -/
def amoOperand (s : State) (r : Reg) (n : Nat) : Nat :=
  if n = 16 then (rd s r).toNat + 18446744073709551616 * (rd s (pairOf r)).toNat else (rd s r).toNat % 2 ^ (8 * n)

/-- X[D] := old (R308). -/
def amoResult (s : State) (d : Reg) (n old : Nat) (zero : Bool) : State :=
  if n = 16 then wr (wr s d (wd old)) (pairOf d) (wd (old / 18446744073709551616))
  else wr s d (extendTo n old zero)

/-- The part of an AMO after its alignment, chunk and capture: the read, the write and the result. Its line enters both signatures,
written or not (R278, R309); an AMO.FAR that writes nothing broadcasts nothing (R310). -/
def amoAct (d : Reg) (ea : Word) (n : Nat) (far zero : Bool) (new : Nat → Option Nat × BitVec 6) (s : State) : State :=
  match translate s (who s) .amo ea with
  | (s1, .error f) => fltTrap s1 f
  | (s1, .ok k) => match readPlace s1 k n with
    | (s2, .error c) => fltTrap s2 (flt c ea)
    | (s2, .ok old) =>
      let r := new old
      let s3 := match r.1 with
        | none => if far then s2 else noteWrite s2 (linesOf k n)
        | some v => (writePlace s2 k n v).1
      let s4 := complete (amoResult (raise s3 r.2) d n old zero)
      afterAccess (if far then commitOpen s4 else s4) ea n true true

/-- An AMO (R308 to R310): .FAR commits the chunk before it and is a chunk of its own. The new value is none where nothing is
written. -/
def amoOp (d a : Reg) (n : Nat) (p : BitVec 1) (zero : Bool) (new : Nat → Option Nat × BitVec 6) (s : State) : State :=
  let ea := rd s a
  aligned s ea n fun s =>
    if p = 1 then settled s fun s => writeGuard (commitOpen s) .amo ea n (amoAct d ea n true zero new)
    else writeGuard s .amo ea n (amoAct d ea n false zero new)

/-- An AMO that writes f old operand, wrapped to n bytes. -/
def amoBin (f : Nat → Nat → Nat → Nat) (d a b : Reg) (p : BitVec 1) (sz : BitVec 2) (s : State) :
    Host.Outcome State Fault Refusal :=
  let n := sizeOf2 sz
  let x := amoOperand s b n
  .next (amoOp d a n p false (fun old => (some (f (8 * n) old x % 2 ^ (8 * n)), 0)) s)

/-- The signed value of a w-bit pattern. -/
def signedOf (w v : Nat) : Int := (BitVec.ofNat w v).toInt

/-- AMOADD (R308). -/
def execAmoadd (d a b : Reg) (p : BitVec 1) (sz : BitVec 2) (s : State) : Host.Outcome State Fault Refusal :=
  amoBin (fun _ x y => x + y) d a b p sz s
/-- AMOAND (R308). -/
def execAmoand (d a b : Reg) (p : BitVec 1) (sz : BitVec 2) (s : State) : Host.Outcome State Fault Refusal :=
  amoBin (fun _ x y => x &&& y) d a b p sz s
/-- AMOOR (R308). -/
def execAmoor (d a b : Reg) (p : BitVec 1) (sz : BitVec 2) (s : State) : Host.Outcome State Fault Refusal :=
  amoBin (fun _ x y => x ||| y) d a b p sz s
/-- AMOXOR (R308). -/
def execAmoxor (d a b : Reg) (p : BitVec 1) (sz : BitVec 2) (s : State) : Host.Outcome State Fault Refusal :=
  amoBin (fun _ x y => x ^^^ y) d a b p sz s
/-- AMOMIN (R308). -/
def execAmomin (d a b : Reg) (p : BitVec 1) (sz : BitVec 2) (s : State) : Host.Outcome State Fault Refusal :=
  amoBin (fun w x y => if signedOf w y < signedOf w x then y else x) d a b p sz s
/-- AMOMAX (R308). -/
def execAmomax (d a b : Reg) (p : BitVec 1) (sz : BitVec 2) (s : State) : Host.Outcome State Fault Refusal :=
  amoBin (fun w x y => if signedOf w x < signedOf w y then y else x) d a b p sz s
/-- AMOMINU (R308). -/
def execAmominu (d a b : Reg) (p : BitVec 1) (sz : BitVec 2) (s : State) : Host.Outcome State Fault Refusal :=
  amoBin (fun _ x y => if y < x then y else x) d a b p sz s
/-- AMOMAXU (R308). -/
def execAmomaxu (d a b : Reg) (p : BitVec 1) (sz : BitVec 2) (s : State) : Host.Outcome State Fault Refusal :=
  amoBin (fun _ x y => if x < y then y else x) d a b p sz s

/-- AMOSWAP (R308). -/
def execAmoswap (d a b : Reg) (p q : BitVec 1) (sz : BitVec 2) (s : State) : Host.Outcome State Fault Refusal :=
  let n := amoSize q sz
  let x := amoOperand s b n
  .next (amoOp d a n p false (fun _ => (some x, 0)) s)

/-- AMOCAS (R308): a failed one writes nothing. -/
def execAmocas (d a b : Reg) (p q : BitVec 1) (sz : BitVec 2) (s : State) : Host.Outcome State Fault Refusal :=
  let n := amoSize q sz
  let x := amoOperand s b n
  let e := amoOperand s d n
  .next (amoOp d a n p false (fun old => (if old = e then some x else none, 0)) s)

/-- AMOFADD (R308): RNE, subnormals honoured, FTZ ignored; X[D] is zero-extended. -/
def execAmofadd (d a b : Reg) (p : BitVec 1) (s : State) : Host.Outcome State Fault Refusal :=
  let x := BitVec.ofNat 32 (amoOperand s b 4)
  .next (amoOp d a 4 p true (fun old => let r := fpAdd 8 0 false (BitVec.ofNat 32 old) x; (some r.1.toNat, r.2)) s)

end Sys2Proof.Machine
end

