-- ==== Sys2Proof/Machine/Csr.lean ====
section
/-! DEFINITION. Machine/Csr.lean: the control and status registers (R50 to R52, R78 to R80, R103, R125 to R127, R131 to R133,
R152, R191, R219, R222, R254, R266, R292, R293, R347, R354, R355, R386, R402) and RAND. -/

namespace Sys2Proof.Machine

open Sys2Proof

/-- The numbers that R51 and R52 assign. -/
def csrAssigned (n : Nat) : Bool :=
  n < 3 || (8 ≤ n && n ≤ 0xB) || n == 0x10 || (0x18 ≤ n && n ≤ 0x1C) || (0x20 ≤ n && n ≤ 0x23) ||
  (0x30 ≤ n && n ≤ 0x34) || (0x38 ≤ n && n ≤ 0x3B) || n == 0x40 || n == 0x41 || n == 0x48 ||
  (0x60 ≤ n && n < 0x80 && n % 8 < 5) || (0x100 ≤ n && n ≤ 0x106) || n == 0x110 || n == 0x111 || n == 0x120 ||
  n == 0x121 || (0x200 ≤ n && n ≤ 0x204) || (0x210 ≤ n && n ≤ 0x213)

/-- The numbers that exist on compute cores only (R51). -/
def csrCompute (n : Nat) : Bool :=
  n < 3 || n == 0xB || n == 0x34 || n == 0x40 || n == 0x41 || n == 0x48 || (0x60 ≤ n && n < 0x80)

/-- May the thread that moves access a number (R50)? -/
def csrOk (s : State) (n : Nat) : Bool :=
  csrAssigned n && decide (n / 256 ≤ s.t.lvl.code) && !(csrCompute n && isSteward s.cur)

/-- The reading core's time CSRs and its other values that a replay takes from the journal (R126, R133, R422). -/
def csrTimed (n : Nat) : Bool := (0x30 ≤ n && n ≤ 0x34) || (0x18 ≤ n && n ≤ 0x1C) || (0x60 ≤ n && n < 0x80)

/-- SPEED (R131). -/
def speedWord (c : Core) : Word := wd (c.degr * 2 ^ 48 + c.tmax * 2 ^ 32 + c.cap * 65536 + c.fcur)

/-- The value of a CSR as it stands. -/
def csrValue (s : State) (n : Nat) : Word :=
  let t := s.t
  let a := t.a
  if n = 0 then vlWord a else if n = 1 then vrs01Word a else if n = 2 then vrs23Word a
  else if n = 8 then a.fctl.setWidth 64 else if n = 9 then a.fstat.setWidth 64 else if n = 0xA then a.fxrm.setWidth 64
  else if n = 0xB then a.cmpthr.setWidth 64 else if n = 0x10 then chklimWord a
  else if n < 0x1D then t.chkstat.toList.getD (n - 0x18) 0
  else if n = 0x20 then evfWord a else if n = 0x21 then a.uivec else if n = 0x22 then uictlWord a else if n = 0x23 then a.uipc
  else if n = 0x30 then s.c.cyc else if n = 0x31 then s.c.nom else if n = 0x32 then ticksOf s.c.clock
  else if n = 0x33 then wd s.c.fcur else if n = 0x34 then speedWord s.c
  else if n = 0x38 then wd s.cur else if n = 0x39 then wd (coreOf s.cur) else if n = 0x3A then wd (dieOf (coreOf s.cur))
  else if n = 0x3B then wd moduleNo
  else if n = 0x40 then a.capBase else if n = 0x41 then a.capSize else if n = 0x48 then latWord s
  else if n < 0x80 then t.lanes.toList.getD (5 * ((n - 0x60) / 8) + n % 8) 0
  else if n = 0x100 then t.tvec else if n = 0x101 then t.tstatus.setWidth 64 else if n = 0x102 then t.trappc
  else if n = 0x103 then t.trapcause.setWidth 64 else if n = 0x104 then t.trapaddr else if n = 0x105 then t.trapblame
  else if n = 0x106 then t.trapstream else if n = 0x110 then t.ctxbase else if n = 0x111 then t.dumpbase
  else if n = 0x120 then t.ptbase else if n = 0x121 then t.asid.setWidth 64
  else if n = 0x200 then t.hvec else if n = 0x201 then t.hstatus.setWidth 64 else if n = 0x202 then t.htrappc
  else if n = 0x203 then t.htrapcause.setWidth 64 else if n = 0x204 then t.htrapaddr
  else if n = 0x210 then wd t.vfid else if n = 0x211 then wd t.keyid else if n = 0x212 then t.hptbase
  else if n = 0x213 then t.fotbase else 0

/-- Read a CSR (R126): one drawn from outside the chunk order is journalled, or replaced during a replay. -/
def csrGet (s : State) (n : Nat) : Word × State :=
  if csrTimed n then volatileRead s (csrValue s n) else (csrValue s n, s)

/-- Bits hi to lo of a word, in place. -/
def keep (v : Word) (hi lo : Nat) : Word := wd (fld v lo (hi + 1 - lo) * 2 ^ lo)

/-- A write of FCTL (R78): a reserved RM leaves RM as it was. -/
def putFctl (v : Word) (a : Arch) : Arch :=
  let rm := if fld v 0 3 ≤ 4 then fld v 0 3 else a.fctl.toNat % 8
  { a with fctl := BitVec.ofNat 4 (8 * fld v 3 1 + rm) }

/-- A write of CMPTHR (R222): a value above 16 leaves it. -/
def putCmpthr (v : Word) (a : Arch) : Arch := if fld v 0 5 ≤ 16 then { a with cmpthr := BitVec.ofNat 5 (fld v 0 5) } else a

/-- A write of CHKLIM (R292): EFF takes the new LIM from the next chunk. -/
def putChklim (v : Word) (a : Arch) : Arch :=
  let n := fld v 0 13
  let lim := if n = 0 ∨ 4096 < n then 4096 else n
  { a with chkLim := lim, chkNext := some lim }

/-- Bits written as 1 clear DONE and FAULT bits of EVF (R254, R261). -/
def clearEvf (v : Word) (a : Arch) : Arch :=
  { a with done := a.done &&& ~~~(v.setWidth 16), efault := a.efault &&& ~~~(BitVec.ofNat 16 (fld v 16 16)) }

/-- A write of VRS01 or VRS23 (R219). -/
def putVrs (high : Bool) (v : Word) (a : Arch) : Arch :=
  if high then { a with vrs := #v[a.vrs[0], a.vrs[1], fld v 0 31, fld v 32 31] }
  else { a with vrs := #v[fld v 0 31, fld v 32 31, a.vrs[2], a.vrs[3]] }

/-- A write of CAPBASE or CAPSIZE (R152). -/
def putCapArea (size : Bool) (v : Word) (a : Arch) : Arch :=
  if size then { a with capSize := keep v 51 12 } else { a with capBase := keep v 51 12 }

/-- A write of CTXBASE sets every dirty bit (R394). -/
def putCtxbase (v : Word) (t : Thread) : Thread := { t with ctxbase := keep v 51 12, a := dirtyAll t.a }

/-- A write of TSTATUS or HSTATUS (R386): the bits at and above 4 that mask names, and PPL up to a limit. -/
def putStatus (mask lim : Nat) (v : Word) (old : BitVec 8) : BitVec 8 :=
  let ppl := if fld v 0 2 ≤ lim then fld v 0 2 else old.toNat % 4
  BitVec.ofNat 8 ((v.toNat % 256 &&& mask) + ppl)

/-- A write of a system register or of a register without side conditions. -/
def putSystem (n : Nat) (v : Word) (t : Thread) : Thread :=
  if n = 0x100 then { t with tvec := keep v 51 2 }
  else if n = 0x101 then { t with tstatus := putStatus 0xE0 1 v t.tstatus }
  else if n = 0x102 then { t with trappc := keep v 51 2 }
  else if n = 0x103 then { t with trapcause := v.setWidth 8 }
  else if n = 0x110 then putCtxbase v t
  else if n = 0x111 then { t with dumpbase := keep v 51 23 ||| keep v 7 0 }
  else if n = 0x120 then { t with ptbase := keep v 49 12 }
  else if n = 0x121 then { t with asid := v.setWidth 16 }
  else if n = 0x200 then { t with hvec := keep v 51 2 }
  else if n = 0x201 then { t with hstatus := putStatus 0xF0 2 v t.hstatus }
  else if n = 0x202 then { t with htrappc := keep v 51 2 }
  else if n = 0x203 then { t with htrapcause := v.setWidth 8 }
  else if n = 0x210 then { t with vfid := fld v 0 6 }
  else if n = 0x211 then { t with keyid := fld v 0 13 }
  else if n = 0x212 then { t with hptbase := keep v 63 63 ||| keep v 49 12 }
  else if n = 0x213 then { t with fotbase := keep v 49 16 }
  else t

/-- A write of a CSR below 0x100 other than EVF; bits of a read-only one are discarded (R4, R50). -/
def putUser (lvl : Level) (n : Nat) (v : Word) (a : Arch) : Arch :=
  if n = 1 then putVrs false v a else if n = 2 then putVrs true v a
  else if n = 8 then putFctl v a else if n = 9 then { a with fstat := v.setWidth 6 }
  else if n = 0xA then { a with fxrm := v.setWidth 2 } else if n = 0xB then putCmpthr v a
  else if n = 0x10 then putChklim v a else if n = 0x21 then { a with uivec := keep v 51 2 }
  else if n = 0x22 then { a with uien := v.setWidth 16 } else if n = 0x23 then { a with uipc := keep v 51 2 }
  else if n = 0x40 ∧ lvl ≠ .u then putCapArea false v a
  else if n = 0x41 ∧ lvl ≠ .u then putCapArea true v a
  else a

/-- What a CSR instruction does to a CSR (R125). -/
inductive CsrMode where
  /-- CSRRD. -/
  | read
  /-- CSRWR. -/
  | write
  /-- CSRSET. -/
  | set
  /-- CSRCLR. -/
  | clear
  deriving DecidableEq, Repr

/-- The value that a CSR instruction writes (R125); none where it writes nothing. EVF is RW1C: CSRSET has no effect. -/
def csrNew (m : CsrMode) (n : Nat) (old x : Word) : Option Word :=
  match m with
  | .read => none
  | .write => some x
  | .set => if n = 0x20 then none else some (old ||| x)
  | .clear => some (if n = 0x20 then x else old &&& ~~~x)

/-- Write a CSR. The context of the core has the VFID that it writes (R361). R361's previous context is then of that VFID (DESIGN CHOICE, log entry
145). -/
def csrPut (s : State) (n : Nat) (v : Word) : State :=
  if n = 0x20 then modA s (clearEvf v)
  else if n < 0x100 then modA s (putUser s.t.lvl n v)
  else if n = 0x210 then { modT s (putSystem n v) with c := { s.c with tenant := some (fld v 0 6) } }
  else modT s (putSystem n v)

/-- The read, the write and X[D] := old (R125). An access to FSTAT waits until the thread's passes and matrix steps are done (R83), and one to a
lane-cycle counter until every pass chunk has committed (R407). -/
def csrAct (m : CsrMode) (d a : Reg) (n : Nat) (s : State) : State :=
  let s0 := if n = 9 then waitVector (settleSealed s) else if 0x60 ≤ n ∧ n < 0x80 then settleSealed s else s
  let r := csrGet s0 n
  let s2 := match csrNew m n r.1 (rd s0 a) with
    | none => r.2
    | some v => csrPut r.2 n v
  wr s2 d r.1

/-- A guest's write of PTBASE or ASID under shadow tables goes to H (R348). -/
def csrGuest (s : State) (m : CsrMode) (n : Nat) : Bool :=
  m != .read && (n == 0x120 || n == 0x121) && decide (fld s.t.hptbase 63 1 = 1) && s.t.lvl == .s

/-- A CSR instruction (R125, R126): the checks of R50 come first; one that names 0x100 to 0x2FF closes the open chunk and
waits for it to commit before it acts, and for the chunks of earlier passes, which keep the translations that they began with (R159). -/
def csrOp (w : Nat) (m : CsrMode) (d a : Reg) (c : BitVec 12) (s : State) : Host.Outcome State Fault Refusal :=
  let n := c.toNat
  .next (
    if !csrOk s n then illegal s w
    else if csrGuest s m n then trapHere s 12 (wd w)
    else if n < 0x100 then complete (csrAct m d a n s)
    else
      let s1 := settleSealed (commitOpen (countOne s))
      rebase (setPc (csrAct m d a n s1) (s.t.a.pc + 4)))

/-- CSRRD (R125). -/
def execCsrrd (d : Reg) (c : BitVec 12) (s : State) : Host.Outcome State Fault Refusal :=
  csrOp (encode (.csrrd d c)) .read d 0 c s
/-- CSRWR (R125). -/
def execCsrwr (d a : Reg) (c : BitVec 12) (s : State) : Host.Outcome State Fault Refusal :=
  csrOp (encode (.csrwr d a c)) .write d a c s
/-- CSRSET (R125). -/
def execCsrset (d a : Reg) (c : BitVec 12) (s : State) : Host.Outcome State Fault Refusal :=
  csrOp (encode (.csrset d a c)) .set d a c s
/-- CSRCLR (R125). -/
def execCsrclr (d a : Reg) (c : BitVec 12) (s : State) : Host.Outcome State Fault Refusal :=
  csrOp (encode (.csrclr d a c)) .clear d a c s

/-- A draw from the entropy source (R127): the draw kept with the checkpoint, else the journal's, else the source's next. -/
def drawWord (s : State) : Word × State :=
  match s.t.draw with
  | some v => (v, s)
  | none => let r := drawn s (Config.entropy s.draws); (r.1, { r.2 with draws := r.2.draws + 1 })

/-- RAND (R127, R272): the open chunk closes after it and commits, and it draws; the draw is kept with the checkpoint of the chunk that follows, so
that a RAND that a squash of that one runs again closes nothing and has the same value. It stalls while the source is unhealthy, from a time of its
die on; in a replay the draw is recorded (R423). -/
def execRand (d : Reg) (s : State) : Host.Outcome State Fault Refusal :=
  let again := s.t.draw.isSome && s.t.chunk.idle && decide (s.t.ckptOpen.pc = s.t.a.pc)
  let s1 := if again then s else commitOpen (countOne s)
  .next (
    if !s1.healthy && s1.t.draw.isNone && !replaying s1 then modT s1 fun t => { t with stall := .rand (dieTime s1 (dieOf (coreOf s1.cur))) }
    else
      let r := drawWord s1
      setPc (wr (modT r.2 fun t => { t with draw := some r.1 }) d r.1) (s.t.a.pc + 4))

end Sys2Proof.Machine
end

