-- ==== Sys2Proof/Machine/Threads.lean ====
section
/-! DEFINITION. Machine/Threads.lean: PARK, PARK.C, WAKE, NAP and YIELD (R87 to R98), and the delivery of a wake (R94, R95). -/

namespace Sys2Proof.Machine

open Sys2Proof

/-- An instruction that ends the open chunk and waits for its commit, then acts and completes (R272). -/
def closeThen (s : State) (f : State → State) : State :=
  rebase (let s1 := f (commitOpen (countOne s)); setPc s1 (s1.t.a.pc + 4))

/-- Has the open chunk of the thread that moves come to its recorded extent (R423)? -/
def extentReached (s : State) : Bool :=
  ((recordFor s 2 s.cur s.t.chunk.num).map fun r => r.dw.getD 2 0 == wd s.t.chunk.count).getD false

/-- The EVENT record that is due at the boundary at which the thread that moves stands (R422, R423): the first for its chunk, once that is over
and the pass chunks that were granted before it have been. -/
def eventDue (s : State) : Option JRec :=
  if !(s.t.chunk.idle || extentReached s) then none
  else match recordFor s 5 s.cur s.t.chunk.before with
    | none => none
    | some r =>
      if (s.journal.takeWhile (· != r)).any fun x => x.kind == 2 && x.agent == passAgent s.cur then none else some r

/-- The type of an EVENT record: 1 user interrupt, 2 pre-emption, 3 wake, 4 cause-15 trap, 5 frequency step, 6 trap of R159; 0 no type. -/
def JRec.eventType (r : JRec) : Nat := ([1, 2, 3, 4, 5, 6].find? fun ty => r.dw.getD 2 0 == Config.eventCode ty).getD 0

/-- Does PARK or NAP consume a pending token (R93, R96)? In a replay not where an event that a record places is what ended it (R423). -/
def takesToken (s : State) : Bool := s.t.a.token && !(replaying s && (eventDue s).isSome)

/-- PARK (R93): a pending token is consumed at once; else the thread is PARKED, its return PC the next instruction. -/
def execPark (d : Reg) (s : State) : Host.Outcome State Fault Refusal :=
  .next (closeThen s fun s =>
    if takesToken s then wr (modA s fun a => { a with token := false }) d 0
    else modT s fun t => { t with run := .parked, parkReg := d })

/-- PARK.C (R97): a count that a pre-emption has interrupted here, at this level, is resumed. -/
def execParkC (a : Reg) (s : State) : Host.Outcome State Fault Refusal :=
  let here (e : Nat × Level × Word) : Bool := e.1 == s.t.a.pc && e.2.1 == s.t.lvl
  let n := ((s.t.parkKept.find? here).map fun e => e.2.2).getD (rd s a)
  let s1 := modT s fun t => { t with parkKept := t.parkKept.filter fun e => !here e }
  .next (if n = 0 then complete s1 else modT s1 fun t => { t with run := .timed, parkLeft := some n })

/-- Is a start refused by what the header of its image says (R94, R361)? Where a read of the image faults the header is not judged, and the start
has status 3 (DESIGN CHOICE, log entry 130). -/
def startRefused (s : State) (dst : Nat) (image : Word) : Bool :=
  match readImage (modT (switchTo s dst) fun t => { t with lvl := s.t.lvl }) image with
  | (_, .error _) => false
  | (s1, .ok d) => startBarred s1 s.t.lvl s.t.vfid d.head

/-- The status of a WAKE that its chunk's commit decides (R94); none for a start. -/
def wakeStatus (s : State) (dst : Nat) (image : Word) : Option Word :=
  if 336 ≤ dst then some 1
  else
    let t := threadAt s dst
    if t.run ≠ .halted then some (if t.vfid = s.t.vfid then 0 else 1)
    else if s.t.lvl = .u then some 1
    else if image = 0 ∨ image.toNat % 4096 ≠ 0 then some 2
    else if startRefused s dst image then some 1
    else none

/-- WAKE (R94): its message leaves at the commit of its chunk; a start stalls its sender until it is acknowledged. -/
def execWake (d a b : Reg) (s : State) : Host.Outcome State Fault Refusal :=
  let dst := (rd s a).toNat
  let image := rd s b
  let done (s : State) (st : Word) : State := rebase (setPc (wr s d st) (s.t.a.pc + 4))
  .next (settled s fun s =>
  let s1 := commitOpen (countOne s)
  match wakeStatus s1 dst image with
    | some st =>
      let r := answered s1 fun s => ([st], s)
      let st := r.1.getD 0 0
      done (if st = 0 then sendMsg r.2 (.wake s.cur dst 0 s.t.lvl s.t.vfid) else r.2) st
    | none => modT (sendMsg s1 (.wake s1.cur dst image s1.t.lvl s1.t.vfid)) fun t => { t with stall := .wakeAck d none })

/-- NAP (R96). -/
def execNap (s : State) : Host.Outcome State Fault Refusal :=
  .next (closeThen s fun s =>
    if takesToken s then modA s fun a => { a with token := false }
    else modT s fun t => { t with run := .napping, napDone := t.a.done })

/-- YIELD (R98): no effect on a steward, nor where the sibling is not RUNNING. -/
def execYield (s : State) : Host.Outcome State Fault Refusal :=
  .next (if isSteward s.cur || (threadAt s (siblingOf s.cur)).run != .running then complete s
    else modT (complete s) fun t => { t with stall := .yield 16 })

/-- A PARKED or NAPPING thread that moves resumes and consumes its token (R93, R96). -/
def resumeToken (s : State) : State :=
  if s.t.run = .parked then rebase (wr (modT (journalEvent s 3 0) fun t => { t with run := .running }) s.t.parkReg 0)
  else modT (journalEvent s 3 0) fun t => { t with run := .running }

/-- A token reaches the thread that moves (R88): a PARKED or NAPPING one resumes. In a replay it resumes where its record says (R423). -/
def takeToken (s : State) : State :=
  if (s.t.run = .parked ∨ s.t.run = .napping) ∧ replaying s = false then resumeToken s
  else modA s fun a => { a with token := true }

/-- The acknowledgement of a start reaches its sender (R94), which takes it up when its core's clock runs (R135). -/
def ackWake (s : State) (src : Nat) (st : Nat) : State :=
  onThread (wakeClock s (coreOf src)) src fun s =>
    match s.t.stall with
    | .wakeAck d _ => modT s fun t => { t with stall := .wakeAck d (some st) }
    | _ => s

/-- A WAKE that has started its target completes with its status, a response that is recorded (R94, R422). -/
def endWake (s : State) (d : Reg) (st : Nat) : State :=
  let r := answered (modT s fun t => { t with stall := .none }) fun s => ([wd st], s)
  rebase (setPc (wr r.2 d (r.1.getD 0 0)) (s.t.a.pc + 4))

/-- A wake acts at its target (R94): the effect follows from the target's state now. A start that finds its target no longer
HALTED acts as a plain wake does. -/
def actWake (s : State) (src dst : Nat) (image : Word) (lvl : Level) (vf : Nat) : State :=
  let t := threadAt s dst
  let s1 : State × Nat :=
    if t.run = .halted then
      (if image = 0 then (s, 1)
       else
        let r := startContext (settleSealed (switchTo s dst)) image lvl vf
        (switchTo r.1 s.cur, r.2))
    else if t.vfid = vf then (onThread s dst takeToken, 0)
    else (s, 1)
  if image = 0 then s1.1 else ackWake s1.1 src s1.2

/-- Is a message a wake from one thread to another? -/
def isWake (src dst : Nat) (m : Msg) : Bool :=
  match m with
  | .wake a b _ _ _ => a == src && b == dst
  | _ => false

/-- What has arrived for a core acts now, or once its relock has ended: the inbound FIFO holds it (R135), as it does while its clock is stopped
(R429). -/
def arriveNow (s : State) (core : Nat) (i : Instr) (f : State → State) : State :=
  let c := coreAt s core
  if c.relock.isSome || c.off then putCore s core { c with inbound := c.inbound ++ [i] } else f s

/-- What has arrived for a core ends its gating (R99), at its die's time, and then acts. -/
def arriveAt (s : State) (core : Nat) (i : Instr) (f : State → State) : State :=
  arriveNow (ungate (wakeClock s core) core) core i f

/-- The oldest wake from a thread to another is delivered (R94, R95). -/
def deliverWake (s : State) (src dst : Nat) : State :=
  match s.wakes.find? (isWake src dst) with
  | none => s
  | some m =>
    arriveAt s (coreOf dst) (.wakeDelivery src dst) fun s1 =>
      match m with
      | .wake src dst image lvl vf => actWake { s1 with wakes := s1.wakes.erase m } src dst image lvl vf
      | _ => s1

end Sys2Proof.Machine
end

