-- ==== Sys2Proof/Machine/Vector.lean ====
section
/-! DEFINITION. Machine/Vector.lean: the instructions on vector and mask registers (R141, R144 to R161, R187 to R210, R327). -/

namespace Sys2Proof.Machine

open Sys2Proof

/-- VSETL (R192). -/
def execVsetl (d a : Reg) (s : State) : Host.Outcome State Fault Refusal :=
  .next (onCompute s (encode (.vsetl d a)) fun s =>
    let g := Nat.min (rd s a).toNat 2147483647
    complete (renegotiate (wr (modA s fun r => { r with vlGrant := g, vlLen := g }) d (wd g))))

/-- FORCE (R161): only a PENDING register starts a pass. -/
def execForce (v : Reg) (s : State) : Host.Outcome State Fault Refusal :=
  .next (onCompute s (encode (.force v)) fun s =>
    if (vreg s.t.a v).pending then force s [] [v.toNat] true else complete s)

/-- VMAT (R161, R188). -/
def execVmat (v : Reg) (s : State) : Host.Outcome State Fault Refusal :=
  .next (onCompute s (encode (.vmat v)) fun s =>
    let x := vreg s.t.a v
    if residentLimit x.ty < x.len then trapHere s 7 (wd x.len)
    else if x.resident then complete s
    else force s [{ kind := .resident v.toNat, srcs := [x], len := x.len, mask := none, blame := Blame.zero }] [] true)

/-- Name a value and complete. -/
def nameThen (s : State) (r : Nat) (v : Val) : State := complete (modA s fun a => nameReg a r v)

/-- Change a register in place (R276): a RESIDENT one is logged. -/
def nameInPlace (s : State) (r : Nat) (v : Val) : State := nameThen (if (regVal s.t.a r).resident then logReg s r else s) r v

/-- VDROP (R161). -/
def execVdrop (v : Reg) (s : State) : Host.Outcome State Fault Refusal :=
  .next (onCompute s (encode (.vdrop v)) fun s => nameThen s v.toNat Val.empty)

/-- A resident value. -/
def residentVal (ty : Nat) (l : List Lane) : Val := { ref := .res l, len := l.length, ty := ty, blame := Blame.zero }

/-- A register becomes RESIDENT with some lanes, subject to R188. -/
def nameResident (s : State) (r ty : Nat) (l : List Lane) : State :=
  if residentLimit ty < l.length then trapHere s 7 (wd l.length) else nameInPlace s r (residentVal ty l)

/-- VBCAST (R206). -/
def execVbcast (v a : Reg) (t : BitVec 4) (s : State) : Host.Outcome State Fault Refusal :=
  .next (onCompute s (encode (.vbcast v a t)) fun s =>
    let ty := t.toNat
    if residentLimit ty < s.t.a.vlLen then trapHere s 7 (wd s.t.a.vlLen)
    else nameResident s v.toNat ty (List.replicate s.t.a.vlLen (holdAs ty (readWord ty (rd s a)))))

/-- An element as VGET delivers it (R207). -/
def elemWord (ty : Nat) (l : Lane) : Word :=
  if tyInt ty then BitVec.ofInt 64 (patInt ty l) else if tyFloat ty then (l.setWidth 32).setWidth 64 else l

/-- VGET (R207). -/
def execVget (v a b : Reg) (s : State) : Host.Outcome State Fault Refusal :=
  .next (onCompute s (encode (.vget v a b)) fun s => needResident s v.toNat fun s =>
    let x := vreg s.t.a v
    let i := (rd s b).toNat
    complete (wr s a (if i < x.len then elemWord x.ty (x.lanes.getD i 0) else 0)))

/-- The element that VINS inserts, and its flags (R207). -/
def insertLane (a : Arch) (ty : Nat) (x : Word) : Lane × BitVec 6 :=
  if tyFloat ty && ty != 8 then
    let r := fpConvert 8 ty (a.fctl.toNat % 8) false (a.fctl.getLsbD 3) (x.setWidth 32)
    (holdAs ty (r.1.setWidth 64), r.2)
  else (holdAs ty (readWord ty x), 0)

/-- VINS (R207). -/
def execVins (v a b : Reg) (s : State) : Host.Outcome State Fault Refusal :=
  .next (onCompute s (encode (.vins v a b)) fun s => needResident s v.toNat fun s =>
    let x := vreg s.t.a v
    let i := (rd s b).toNat
    if i < x.len then
      let r := insertLane s.t.a x.ty (rd s a)
      nameInPlace (raise s r.2) v.toNat (residentVal x.ty (x.lanes.set i r.1))
    else complete s)

/-- Is element e equal to an earlier one of its window of 64 (R208)? -/
def conflicts (ty : Nat) (l : List Lane) (e : Nat) : Bool :=
  (List.range (e % 64)).any fun k => patInt ty (l.getD (e - 1 - k) 0) == patInt ty (l.getD e 0)

/-- VCONF (R208). -/
def execVconf (v b : Reg) (s : State) : Host.Outcome State Fault Refusal :=
  let w := encode (.vconf v b)
  .next (onCompute s w fun s =>
    if !tyInt (vreg s.t.a b).ty then illegal s w
    else needResident s b.toNat fun s =>
      let x := vreg s.t.a b
      nameResident s v.toNat 14 ((List.range x.len).map fun e => wd (b2n (conflicts x.ty x.lanes e))))

/-- Is a mask register m0 or RESIDENT (R209, R210)? -/
def maskReady (s : State) (k : BitVec 3) : Bool := k == 0 || (mreg s.t.a k).resident

/-- Bit e of a ready mask: m0 reads 1; beyond its length a mask reads 0 (R189). -/
def readyBit (s : State) (k : BitVec 3) (e : Nat) : Bool :=
  if k = 0 then true else let m := mreg s.t.a k; decide (e < m.len) && (m.lanes.getD e 0).toNat % 2 == 1

/-- Length of a ready mask: m0 has VL.LEN bits (R209, R210). -/
def readyLen (s : State) (k : BitVec 3) : Nat := if k = 0 then s.t.a.vlLen else (mreg s.t.a k).len

/-- VCOMPACT (R209). -/
def execVcompact (v : Reg) (k : BitVec 3) (b : Reg) (s : State) : Host.Outcome State Fault Refusal :=
  let w := encode (.vcompact v k b)
  .next (onCompute s w fun s =>
    if !maskReady s k then illegal s w
    else needResident s b.toNat fun s =>
      let x := vreg s.t.a b
      nameResident s v.toNat x.ty (((List.range x.len).filter (readyBit s k)).map fun e => x.lanes.getD e 0))

/-- The set bits of a ready mask. -/
def setBits (s : State) (k : BitVec 3) : List Nat := (List.range (readyLen s k)).filter (readyBit s k)

/-- MCNT (R209). -/
def execMcnt (d : Reg) (k : BitVec 3) (s : State) : Host.Outcome State Fault Refusal :=
  let w := encode (.mcnt d k)
  .next (onCompute s w fun s =>
    if !maskReady s k then illegal s w
    else complete (wr s d (wd (if k = 0 then s.t.a.vlLen else (setBits s k).length))))

/-- MFIRST (R209). -/
def execMfirst (d : Reg) (k : BitVec 3) (s : State) : Host.Outcome State Fault Refusal :=
  let w := encode (.mfirst d k)
  .next (onCompute s w fun s =>
    if !maskReady s k then illegal s w
    else complete (wr s d (if k = 0 then (if s.t.a.vlLen = 0 then 0xFFFFFFFFFFFFFFFF else 0)
      else match (setBits s k).head? with
        | some e => wd e
        | none => 0xFFFFFFFFFFFFFFFF)))

/-- MLOG, logic (R210): tt[2a + b]; a mask beyond its length reads 0. -/
def execMlogLogic (k a : BitVec 3) (t : BitVec 4) (b : BitVec 3) (s : State) : Host.Outcome State Fault Refusal :=
  let w := encode (.mlogLogic k a t b)
  .next (onCompute s w fun s =>
    if !(maskReady s a && maskReady s b) then illegal s w
    else
      let n := Nat.max (readyLen s a) (readyLen s b)
      let bit (r : BitVec 3) (e : Nat) : Nat := b2n (decide (e < readyLen s r) && readyBit s r e)
      if residentLimit 14 < n then trapHere s 7 (wd n)
      else nameResident s (32 + k.toNat) 14 ((List.range n).map fun e =>
        wd (b2n (bitAt t.toNat (2 * bit a e + bit b e)))))

/-- MLOG from vector (R210). -/
def execMlogFromVector (k : BitVec 3) (v : Reg) (s : State) : Host.Outcome State Fault Refusal :=
  let w := encode (.mlogFromVector k v)
  .next (onCompute s w fun s =>
    let x := vreg s.t.a v
    if x.ty ≠ 14 then illegal s w else nameInPlace s (32 + k.toNat) x)

/-- MLOG to vector (R210). -/
def execMlogToVector (v : Reg) (a : BitVec 3) (s : State) : Host.Outcome State Fault Refusal :=
  .next (onCompute s (encode (.mlogToVector v a)) fun s => nameThen s v.toNat (mreg s.t.a a))

/-- Record a stream base with its advance per element (R327): four registers at most, each once. -/
def recordBase (a : Arch) (r : Reg) (adv : Word) : Arch :=
  if a.bases.any (fun b => b.1 == r) || decide (4 ≤ a.bases.length) then a else { a with bases := a.bases ++ [(r, adv)] }

/-- Record the base of a unit stream; E2M1 and masks record nothing (R327). -/
def recordUnit (a : Arch) (r : Reg) (ty n : Nat) : Arch := if 13 ≤ ty then a else recordBase a r (wd (n * tyBytes ty))

/-- The lowest free leaf slot (R141). -/
def freeSlot (a : Arch) : Nat := ((List.range 8).find? fun i => !(a.leaves.any fun l => l.slot == i)).getD 0

/-- The leaf bound earliest (R141). -/
def oldestLeaf : List Leaf → Option Leaf
  | [] => none
  | l :: t => match oldestLeaf t with
    | none => some l
    | some m => if m.seq < l.seq then some m else some l

/-- Make registers PENDING on a new leaf (R140, R194): regs are its fields in order. -/
def bindLeaf (a : Arch) (regs : List Nat) (base : Word) (lay : Layout) (ty len : Nat) (ff : Bool) : Arch :=
  let slot := freeSlot a
  let l : Leaf := { slot := slot, seq := a.nextId, base := base, lay := lay, ty := ty, len := len, ff := ff, bpc := a.pc }
  let a1 := { a with leaves := a.leaves ++ [l], nextId := a.nextId + 1 }
  tidy ((List.range regs.length).foldl (fun a f => setReg a (regs.getD f 0)
    { ref := .leaf slot f, len := len, ty := ty, blame := { kind := 1, pos := 0, pc := l.bpc } }) a1)

/-- A binding, its checks done (R194): with all eight slots in use, the PENDING registers that depend on the leaf bound
earliest are captured first and the binding acts after (R141). -/
def bindThen (s : State) (regs : List Nat) (base : Word) (lay : Layout) (ty len : Nat) (ff : Bool) (note : Arch → Arch) :
    State :=
  let o : Option Leaf := match s.t.a.freeing with
    | some q => s.t.a.leaves.find? fun l => l.seq == q
    | none => if s.t.a.leaves.length < 8 then none else oldestLeaf s.t.a.leaves
  let caps := (o.map fun o => dependents s.t.a fun l => l.slot == o.slot).getD []
  capturedFirst (modA s fun a => { a with freeing := o.map Leaf.seq }) caps fun s =>
    complete (modA s fun a => note (bindLeaf { a with freeing := none } regs base lay ty len ff))

/-- The alignment checks of R194: the base, then a stride. -/
def streamAligned (s : State) (base : Word) (ty : Nat) (stride : Option Word) (f : State → State) : State :=
  let w := tyBytes ty
  aligned s base w fun s => match stride with
    | none => f s
    | some st => if st.toNat % w ≠ 0 then trapHere s 2 (base + st) else f s

/-- The first stride of a shape that is no multiple of a width (R198). -/
def badStride (r : Shape) (w : Nat) : Option Word :=
  ([r.s0, r.s1, r.s2, r.s3].filter fun (d : Word) => d.toNat % w != 0).head?

/-- The shape record of VLDT or VSTT (R197, R198). -/
def withShape (s : State) (base rec : Word) (ty : Nat) (f : Shape → State → State) : State :=
  aligned s rec 64 fun s =>
    match loadNat s rec 64 with
    | (s1, .error e) => fltTrap s1 e
    | (s1, .ok v) => match badStride (shapeOf v) (tyBytes ty) with
      | some st => trapHere s1 2 (base + st)
      | none => f (shapeOf v) s1

/-- VLD (R193). -/
def execVld (v a : Reg) (t : BitVec 4) (s : State) : Host.Outcome State Fault Refusal :=
  .next (onCompute s (encode (.vld v a t)) fun s => streamAligned s (rd s a) t.toNat none fun s =>
    bindThen s [v.toNat] (rd s a) .unit t.toNat s.t.a.vlLen false fun r => recordUnit r a t.toNat 1)
/-- VLD.FF (R193, R157). -/
def execVldFf (v a : Reg) (t : BitVec 4) (s : State) : Host.Outcome State Fault Refusal :=
  .next (onCompute s (encode (.vldFf v a t)) fun s => streamAligned s (rd s a) t.toNat none fun s =>
    bindThen s [v.toNat] (rd s a) .unit t.toNat s.t.a.vlLen true fun r => recordUnit r a t.toNat 1)
/-- VLD.M (R193). -/
def execVldM (k : BitVec 3) (a : Reg) (s : State) : Host.Outcome State Fault Refusal :=
  .next (onCompute s (encode (.vldM k a)) fun s =>
    bindThen s [32 + k.toNat] (rd s a) .unit 14 s.t.a.vlLen false id)
/-- VLDS (R193). -/
def execVlds (v a b : Reg) (t : BitVec 4) (s : State) : Host.Outcome State Fault Refusal :=
  .next (onCompute s (encode (.vlds v a b t)) fun s =>
    streamAligned s (rd s a) t.toNat (some (rd s b)) fun s =>
      bindThen s [v.toNat] (rd s a) (.strided (rd s b)) t.toNat s.t.a.vlLen false fun r => recordBase r a (rd s b))
/-- VLDX (R193): its index register has an integer type. -/
def execVldx (v a b : Reg) (t : BitVec 4) (s : State) : Host.Outcome State Fault Refusal :=
  let w := encode (.vldx v a b t)
  .next (onCompute s w fun s =>
    if !tyInt (vreg s.t.a b).ty then illegal s w
    else streamAligned s (rd s a) t.toNat none fun s =>
      bindThen s [v.toNat] (rd s a) (.indexed (vreg s.t.a b)) t.toNat s.t.a.vlLen false id)
/-- The registers of a segment form. -/
def segRegs (v n : Reg) : List Nat := (List.range n.toNat).map (v.toNat + ·)
/-- VLDSEG (R193). -/
def execVldseg (v a n : Reg) (t : BitVec 4) (s : State) : Host.Outcome State Fault Refusal :=
  .next (onCompute s (encode (.vldseg v a n t)) fun s => streamAligned s (rd s a) t.toNat none fun s =>
    bindThen s (segRegs v n) (rd s a) (.seg n.toNat) t.toNat s.t.a.vlLen false fun r => recordUnit r a t.toNat n.toNat)
/-- VLDT (R193, R197, R198). -/
def execVldt (v a b : Reg) (t : BitVec 4) (s : State) : Host.Outcome State Fault Refusal :=
  .next (onCompute s (encode (.vldt v a b t)) fun s => streamAligned s (rd s a) t.toNat none fun s =>
    withShape s (rd s a) (rd s b) t.toNat fun r s =>
      bindThen s [v.toNat] (rd s a) (.shape r) t.toNat (Nat.min s.t.a.vlLen r.size) false id)

/-- WEAVE (R144). -/
def execWeave (o : BitVec 21) (s : State) : Host.Outcome State Fault Refusal :=
  .next (onCompute s (encode (.weave o)) fun s => weaveAt s (wd (relTarget s.t.a.pc o.toInt)))

/-- First and last byte of element e of a stream that is not indexed, all its fields. -/
def elemBytes (base : Word) (lay : Layout) (ty e : Nat) : Nat × Nat :=
  let lo := (elemAddr base lay ty e 0 0).toNat
  let n := match lay with
    | .seg k => k
    | _ => 1
  (lo, lo + n * tyBytes ty - 1)

/-- Does sink element e write a byte of some other element of a leaf (R150)? -/
def writesOther (l : Leaf) (base : Word) (lay : Layout) (ty e : Nat) : Bool :=
  let w := elemBytes base lay ty e
  (List.range l.len).any fun k =>
    let r := elemBytes l.base l.lay l.ty k
    k != e && decide (w.1 ≤ r.2) && decide (r.1 ≤ w.2)

/-- Elements of the stream never share bytes: unit and segment streams of whole bytes. -/
def disjointElems (lay : Layout) (ty : Nat) : Bool :=
  match lay with
  | .unit => decide (ty < 13)
  | .seg _ => true
  | _ => false

/-- Must the chain between a leaf and a sink of one pass be captured first (R150)? -/
def hazard (l : Leaf) (base : Word) (lay : Layout) (ty len : Nat) : Bool :=
  let ext := extentOf base lay ty len
  if !(l.extent.meets 1 ext) then false
  else if l.extent = .all ∨ ext = .all then true
  else if l.base = base ∧ l.lay = lay ∧ tyBits l.ty = tyBits ty ∧ disjointElems lay ty = true then false
  else (List.range len).any (writesOther l base lay ty)

/-- The leaves that values read. -/
def leavesOf (a : Arch) (l : List Val) : List Leaf :=
  let m := reach a l
  a.leaves.filter fun x => m.slots.contains x.slot

/-- Force the pass of a store or scatter (R147 to R150): the captures that R149 asks for are further sinks of the pass, or run
in a capture pass first where the sinks would exceed four, where a capture's own leaves may be overwritten within the pass, or where
the chain to the sink must be captured. `uses` are the registers that the sink reads. -/
def sinkPass (s : State) (k : Sink) (uses : List Nat) (ext : Extent) (haz : Leaf → Bool) : State :=
  let a := s.t.a
  let caps := dependents a fun l => l.extent.meets 4096 ext
  let late := dependents a haz
  let early := if (leavesOf a k.vals).any haz then uses.filter late.contains else []
  if 3 < caps.length ∨ early ≠ [] ∨ (leavesOf a (caps.map (regVal a))).any haz = true then capturePass s (inRegOrder (caps ++ early))
  else force s [k] caps true

/-- The governing mask as a register, for the registers that a sink reads. -/
def maskUse (k : BitVec 3) : List Nat := if k = 0 then [] else [32 + k.toNat]

/-- The store of registers by a layout (R200); a store whose pass starts records its base (R327). -/
def storeSink (s : State) (note : Arch → Arch) (regs : List Nat) (base : Word) (lay : Layout) (ty len : Nat) (k : BitVec 3)
    (index : List Nat) : State :=
  let sink : Sink := { kind := .store base lay, srcs := regs.map (regVal s.t.a), len := len, mask := maskOf s.t.a k,
                       blame := { kind := 2, pos := 0, pc := s.t.a.pc } }
  let s1 := sinkPass s sink (regs ++ maskUse k ++ index) (extentOf base lay ty len) fun l => hazard l base lay ty len
  if s1.t.pass.isSome then modA s1 note else s1

/-- The type check of a store (R200). -/
def typed (s : State) (w : Nat) (regs : List Nat) (t : BitVec 4) (f : State → State) : State :=
  if regs.all fun r => (regVal s.t.a r).ty == t.toNat then f s else illegal s w

/-- Length of a register's value. -/
def lenOf (s : State) (v : Reg) : Nat := (vreg s.t.a v).len

/-- VST (R199). -/
def execVst (v a : Reg) (k : BitVec 3) (t : BitVec 4) (s : State) : Host.Outcome State Fault Refusal :=
  let w := encode (.vst v a k t)
  .next (onCompute s w fun s => typed s w [v.toNat] t fun s => streamAligned s (rd s a) t.toNat none fun s =>
    storeSink s (fun r => recordUnit r a t.toNat 1) [v.toNat] (rd s a) .unit t.toNat (lenOf s v) k [])
/-- VSTS (R199). -/
def execVsts (v a b : Reg) (k : BitVec 3) (t : BitVec 4) (s : State) : Host.Outcome State Fault Refusal :=
  let w := encode (.vsts v a b k t)
  .next (onCompute s w fun s => typed s w [v.toNat] t fun s => streamAligned s (rd s a) t.toNat (some (rd s b)) fun s =>
    storeSink s (fun r => recordBase r a (rd s b)) [v.toNat] (rd s a) (.strided (rd s b)) t.toNat (lenOf s v) k [])
/-- VSTX (R199). -/
def execVstx (v a b : Reg) (k : BitVec 3) (t : BitVec 4) (s : State) : Host.Outcome State Fault Refusal :=
  let w := encode (.vstx v a b k t)
  .next (onCompute s w fun s =>
    if !tyInt (vreg s.t.a b).ty then illegal s w
    else typed s w [v.toNat] t fun s => streamAligned s (rd s a) t.toNat none fun s =>
      storeSink s id [v.toNat] (rd s a) (.indexed (vreg s.t.a b)) t.toNat (lenOf s v) k [b.toNat])
/-- VSTSEG (R199). -/
def execVstseg (v a n : Reg) (k : BitVec 3) (t : BitVec 4) (s : State) : Host.Outcome State Fault Refusal :=
  let w := encode (.vstseg v a n k t)
  .next (onCompute s w fun s => typed s w (segRegs v n) t fun s => streamAligned s (rd s a) t.toNat none fun s =>
    storeSink s (fun r => recordUnit r a t.toNat n.toNat) (segRegs v n) (rd s a) (.seg n.toNat) t.toNat (lenOf s v)
      k [])
/-- VSTT (R199, R198). DESIGN CHOICE (log entry 93): its length is that of R200, the lesser of the length of its register and the record's
element count, where R197 gives it that of VLDT, with VL.LEN. -/
def execVstt (v a b : Reg) (k : BitVec 3) (t : BitVec 4) (s : State) : Host.Outcome State Fault Refusal :=
  let w := encode (.vstt v a b k t)
  .next (onCompute s w fun s => typed s w [v.toNat] t fun s => streamAligned s (rd s a) t.toNat none fun s =>
    withShape s (rd s a) (rd s b) t.toNat fun r s =>
      storeSink s id [v.toNat] (rd s a) (.shape r) t.toNat (Nat.min (lenOf s v) r.size) k [])

/-- The whole TCM window of a core, which a VSCR sink covers (R149). -/
def tcmWindow : Extent := .bytes 4503595332403200 4503595332665344

/-- A scatter-reduce (R201). -/
def scatterOp (w : Nat) (op : RedOp) (v a b : Reg) (k : BitVec 3) (t : BitVec 4) (s : State) :
    Host.Outcome State Fault Refusal :=
  .next (onCompute s w fun s =>
    if !tyInt (vreg s.t.a b).ty then illegal s w
    else typed s w [v.toNat] t fun s => streamAligned s (rd s a) t.toNat none fun s =>
      let x := vreg s.t.a v
      let sink : Sink := { kind := .scatter op (rd s a) (vreg s.t.a b), srcs := [x], len := x.len,
                           mask := maskOf s.t.a k, blame := { kind := 2, pos := 0, pc := s.t.a.pc } }
      sinkPass s sink ([v.toNat, b.toNat] ++ maskUse k) (if x.len = 0 then .empty else tcmWindow)
        fun l => decide (x.len ≠ 0) && l.extent.meets 1 tcmWindow)

/-- VSCR.ADD (R201). -/
def execVscrAdd (v a b : Reg) (k : BitVec 3) (t : BitVec 4) (s : State) : Host.Outcome State Fault Refusal :=
  scatterOp (encode (.vscrAdd v a b k t)) .add v a b k t s
/-- VSCR.MIN (R201). -/
def execVscrMin (v a b : Reg) (k : BitVec 3) (t : BitVec 4) (s : State) : Host.Outcome State Fault Refusal :=
  scatterOp (encode (.vscrMin v a b k t)) .min v a b k t s
/-- VSCR.MAX (R201). -/
def execVscrMax (v a b : Reg) (k : BitVec 3) (t : BitVec 4) (s : State) : Host.Outcome State Fault Refusal :=
  scatterOp (encode (.vscrMax v a b k t)) .max v a b k t s
/-- VSCR.AND (R201). -/
def execVscrAnd (v a b : Reg) (k : BitVec 3) (t : BitVec 4) (s : State) : Host.Outcome State Fault Refusal :=
  scatterOp (encode (.vscrAnd v a b k t)) .and v a b k t s
/-- VSCR.OR (R201). -/
def execVscrOr (v a b : Reg) (k : BitVec 3) (t : BitVec 4) (s : State) : Host.Outcome State Fault Refusal :=
  scatterOp (encode (.vscrOr v a b k t)) .or v a b k t s
/-- VSCR.XOR (R201). -/
def execVscrXor (v a b : Reg) (k : BitVec 3) (t : BitVec 4) (s : State) : Host.Outcome State Fault Refusal :=
  scatterOp (encode (.vscrXor v a b k t)) .xor v a b k t s

/-- A reduction (R202 to R204). -/
def reduceOp (w : Nat) (op : RedOp) (withIdx : Bool) (v d : Reg) (k : BitVec 3) (t : BitVec 4) (s : State) :
    Host.Outcome State Fault Refusal :=
  .next (onCompute s w fun s => typed s w [v.toNat] t fun s =>
    let x := vreg s.t.a v
    force s [{ kind := .reduce op d withIdx, srcs := [x], len := x.len, mask := maskOf s.t.a k,
               blame := { kind := 2, pos := 0, pc := s.t.a.pc } }] [] true)

/-- VRED.ADD (R203). -/
def execVredAdd (v d : Reg) (k : BitVec 3) (t : BitVec 4) (s : State) : Host.Outcome State Fault Refusal :=
  reduceOp (encode (.vredAdd v d k t)) .add false v d k t s
/-- VRED.MIN (R203). -/
def execVredMin (v d : Reg) (k : BitVec 3) (t : BitVec 4) (s : State) : Host.Outcome State Fault Refusal :=
  reduceOp (encode (.vredMin v d k t)) .min false v d k t s
/-- VRED.MAX (R203). -/
def execVredMax (v d : Reg) (k : BitVec 3) (t : BitVec 4) (s : State) : Host.Outcome State Fault Refusal :=
  reduceOp (encode (.vredMax v d k t)) .max false v d k t s
/-- VRED.AND (R203). -/
def execVredAnd (v d : Reg) (k : BitVec 3) (t : BitVec 4) (s : State) : Host.Outcome State Fault Refusal :=
  reduceOp (encode (.vredAnd v d k t)) .and false v d k t s
/-- VRED.OR (R203). -/
def execVredOr (v d : Reg) (k : BitVec 3) (t : BitVec 4) (s : State) : Host.Outcome State Fault Refusal :=
  reduceOp (encode (.vredOr v d k t)) .or false v d k t s
/-- VRED.XOR (R203). -/
def execVredXor (v d : Reg) (k : BitVec 3) (t : BitVec 4) (s : State) : Host.Outcome State Fault Refusal :=
  reduceOp (encode (.vredXor v d k t)) .xor false v d k t s
/-- VREDI.MIN (R204). -/
def execVrediMin (v d : Reg) (k : BitVec 3) (t : BitVec 4) (s : State) : Host.Outcome State Fault Refusal :=
  reduceOp (encode (.vrediMin v d k t)) .min true v d k t s
/-- VREDI.MAX (R204). -/
def execVrediMax (v d : Reg) (k : BitVec 3) (t : BitVec 4) (s : State) : Host.Outcome State Fault Refusal :=
  reduceOp (encode (.vrediMax v d k t)) .max true v d k t s

end Sys2Proof.Machine
end

