-- ==== Sys2Proof/Machine/Matrix.lean ====
section
/-! DEFINITION. Machine/Matrix.lean: the instructions of the matrix array (R225 to R244). -/

namespace Sys2Proof.Machine

open Sys2Proof

/-- The header of a tile image, a line that is read on the vector side (R231, R232): its place and its number, or the fault. -/
def imageHead (s : State) (va : Word) : State × Except Flt (Nat × Nat) :=
  match translate s (who s) .read va with
  | (s1, .error f) => (s1, .error f)
  | (s1, .ok k) =>
    if isDevice k then (s1, .error (flt 3 va))
    else if fencedPoison s1 k 64 then (s1, .error (flt 8 va))
    else (s1, .ok (k, leNat (fencedByte s1) k 64))

/-- The places of n lines of 64 bytes of a tile image, read on the vector side (R232). -/
def imagePlaces (s : State) (va : Word) : Nat → State × Except Flt (List Nat)
  | 0 => (s, .ok [])
  | n + 1 =>
    match translate s (who s) .read va with
    | (s1, .error f) => (s1, .error f)
    | (s1, .ok k) =>
      if isDevice k then (s1, .error (flt 3 va)) else
        match imagePlaces s1 (va + 64) n with
        | (s2, .error f) => (s2, .error f)
        | (s2, .ok l) => (s2, .ok (k :: l))

/-- The first line of a body that holds an uncorrectable error, by its address (R231). -/
def poisonedLine (s : State) (va : Word) : List Nat → Option Word
  | [] => none
  | k :: t => if fencedPoison s k 64 then some va else poisonedLine s (va + 64) t

/-- Does a chunk of the thread hold an MLDW into a slot (R226)? -/
def loadsSlot (t : Thread) (i : Nat) : Bool :=
  t.chunk.slots.any (fun p => p.1 == i) || ((t.closed.map fun c => c.slots.any fun p => p.1 == i).getD false)

/-- A slot's previous MLDW commits first (R226), whichever thread of the core issued it: the thread's own chunk closes where it must, and
the sibling's is waited for. -/
def withSlot (s : State) (i : Nat) (f : State → State) : State :=
  let s1 := if s.t.chunk.slots.any fun p => p.1 == i then commitOpen s
    else if loadsSlot s.t i then commitClosed s else s
  if loadsSlot (threadAt s1 (siblingOf s1.cur)) i then modT s1 fun t => { t with stall := .slot i } else f s1

/-- The tile enters its slot: the prior contents are kept with the chunk (R226), the body is streaming in (R231), and the image's granules,
its header's among them, enter the read signature (R232). -/
def fillSlot (s : State) (i ty form : Nat) (scale : BitVec 32) (head : Nat) (va : Word) (places : List Nat) : State :=
  let b (o : Nat) : Byte := fencedByte s (places.getD (o / 64 - 1) 0 + o % 64)
  let old := slotOf s.c i
  let new : Slot := { owner := some s.cur, ty := ty, scale := scale, w := old.w, check := old.check, poison := none,
                      loading := some (bodyTile form ty b, poisonedLine s va places) }
  let s1 := { s with c := putSlot s.c i new }
  modT s1 fun t => { t with chunk := { t.chunk with slots := (i, old) :: t.chunk.slots,
                                                    readG := ((head :: places).map (· / 4096)).foldl addItem t.chunk.readG } }

/-- Has a step of the thread that moves failed its check while its steps were waited for (R242)? The result of the instruction that has
waited is then discarded with those after the step. -/
def checkFailed (s s1 : State) : Bool := s.t.deferred.isNone && s1.t.deferred.isSome

/-- MLDW (R231). It reads on the vector side (R232): after the thread's earlier passes, whose last chunk commits first, and of its own stores
those that a fence covers. -/
def execMldw (i : BitVec 1) (a : Reg) (t : BitVec 4) (s : State) : Host.Outcome State Fault Refusal :=
  let w := encode (.mldw i a t)
  .next (onCompute s w fun s => aligned s (rd s a) 64 fun s => withSlot s i.toNat fun s =>
    let va := rd s a
    match imageHead (settleSealed s) va with
    | (s1, .error f) => fltTrap s1 f
    | (s1, .ok (k, h)) =>
      let form := h / 2 ^ 32 % 256
      if !formOk form t.toNat then illegal s1 w else
        match imagePlaces s1 (va + 64) (bodySize form t.toNat / 64) with
        | (s2, .error f) => fltTrap s2 f
        | (s2, .ok l) =>
          let s3 := drainCore s2
          if checkFailed s2 s3 then complete s3 else
          complete { fillSlot s3 i.toNat t.toNat form (BitVec.ofNat 32 h) k (va + 64) l with
            agenda := s3.agenda ++ [.event (.tileLoadCompletion (coreOf s3.cur) i.toNat)] })

/-- The second type of a row step (R230). -/
def secondType (t : Nat) (u : BitVec 2) : Nat :=
  if u = 0 then t else if t = 11 then 12 else if t = 12 then 11 else if t = 0 then 4 else 0

/-- The key under which an error of a scale register is kept (R243). -/
def scaleKey (s : State) (q : Nat) : Nat := 512 + 8 * (s.cur % 2) + q

/-- The first error that a matrix instruction reads (R243): TRAPADDR. Rows come before qj (DESIGN CHOICE, log entry 140). -/
def matrixError (s : State) (rows : List Nat) (q : Option Nat) : Option Word :=
  match rows.find? s.c.bad.contains with
  | some g => some (wd g)
  | none => match q with
    | none => none
    | some j => if s.c.bad.contains (scaleKey s j) then some (wd (512 + j)) else none

/-- An instruction that writes rows or a scale register ends their errors. -/
def clearBad (s : State) (keys : List Nat) : State :=
  if s.c.bad.isEmpty then s else
    modT { s with c := { s.c with bad := s.c.bad.filter fun k => !keys.contains k } } fun t =>
      { t with chunk := { t.chunk with mended := t.chunk.mended ++ s.c.bad.filter keys.contains } }

/-- The steps of a row instruction enter the array (R233, R236): step t takes elements t up. -/
def issueSteps (s : State) (g n : Nat) (l : List Lane) (ty i depth : Nat) (scale : BitVec 32) (acc : Bool) : State :=
  let steps := (List.range n).map fun t =>
    ({ tid := s.cur, pc := s.t.a.pc, row := g + t, act := (l.drop t).take depth, ty := ty, slot := i, scale := scale,
       acc := acc, num := s.t.chunk.num } : MatStep)
  { s with c := { s.c with mat := s.c.mat ++ steps },
           agenda := s.agenda ++ steps.map fun _ => Due.event (.matrixStepCompletion (coreOf s.cur) false) }

/-- An instruction that more history than 16 KiB would take runs as a chunk of its own, which logs nothing (R276). DESIGN CHOICE (log entry
106): the closing before it does not count in CAPCLOSE. -/
def ownChunk (big : Bool) (s : State) (f : State → State) : State := if big then commitOpen (f (commitOpen s)) else f s

/-- MROW and MSLIDE (R233, R236): the checks in their order, then the steps. -/
def rowOp (w : Nat) (slide acc : Bool) (v a : Reg) (n : BitVec 2) (i : BitVec 1) (u : BitVec 2) (q : BitVec 3)
    (t : BitVec 4) (s : State) : Host.Outcome State Fault Refusal :=
  .next (onCompute s w fun s => needResident s v.toNat fun s =>
    let x := vreg s.t.a v
    let depth := tileDepth t.toNat
    let g := 128 * n.toNat + (rd s a).toNat
    let count := if slide then Nat.max 1 (x.len + 1 - depth) else 1
    let sl := finishLoad (slotOf s.c i.toNat)
    if 128 ≤ (rd s a).toNat ∨ holdsRows s g count = false ∨ sl.owner ≠ some s.cur ∨ sl.ty ≠ secondType t.toNat u ∨
        x.ty ≠ t.toNat then illegal s w
    else match sl.poison with
      | some p => trapHere s 8 p
      | none =>
        let rows := (List.range count).map (g + ·)
        match matrixError s (if acc then rows else []) (if t.toNat < 8 then none else some q.toNat) with
        | some e => trapHere s 8 e
        | none =>
          ownChunk (32 < count) s fun s1 =>
            complete (issueSteps (clearBad s1 rows) g count x.lanes t.toNat i.toNat depth (s1.t.a.q[q.toNat]'(q.isLt)) acc))

/-- MROW (R233). -/
def execMrow (v a : Reg) (n : BitVec 2) (i : BitVec 1) (u : BitVec 2) (q : BitVec 3) (t : BitVec 4) (s : State) :
    Host.Outcome State Fault Refusal := rowOp (encode (.mrow v a n i u q t)) false false v a n i u q t s
/-- MROW.ACC (R233). -/
def execMrowAcc (v a : Reg) (n : BitVec 2) (i : BitVec 1) (u : BitVec 2) (q : BitVec 3) (t : BitVec 4) (s : State) :
    Host.Outcome State Fault Refusal := rowOp (encode (.mrowAcc v a n i u q t)) false true v a n i u q t s
/-- MSLIDE (R236). -/
def execMslide (v a : Reg) (n : BitVec 2) (i : BitVec 1) (u : BitVec 2) (q : BitVec 3) (t : BitVec 4) (s : State) :
    Host.Outcome State Fault Refusal := rowOp (encode (.mslide v a n i u q t)) true false v a n i u q t s
/-- MSLIDE.ACC (R236). -/
def execMslideAcc (v a : Reg) (n : BitVec 2) (i : BitVec 1) (u : BitVec 2) (q : BitVec 3) (t : BitVec 4) (s : State) :
    Host.Outcome State Fault Refusal := rowOp (encode (.mslideAcc v a n i u q t)) true true v a n i u q t s

/-- Zero a row that the thread holds, its prior contents logged (R226). -/
def zeroRow (s : State) (g : Nat) : State :=
  let old := tileRow s.c g
  modT { s with c := putTileRow s.c g (List.replicate 128 0) } fun t => logRow t t.chunk.num g old

/-- MZERO (R238): a count of 0 has no effect; more than 16 KiB of history makes it a chunk of its own, which logs nothing (R276). -/
def execMzero (n : BitVec 2) (a b : Reg) (s : State) : Host.Outcome State Fault Refusal :=
  let w := encode (.mzero n a b)
  .next (onCompute s w fun s =>
    let count := (rd s b).toNat
    let g := 128 * n.toNat + (rd s a).toNat
    if count = 0 then complete s
    else if 128 ≤ (rd s a).toNat ∨ holdsRows s g count = false then illegal s w
    else ownChunk (32 < count) s fun s =>
      let s1 := drainMatrix s
      if checkFailed s s1 then complete s1 else
      let rows := (List.range count).map (g + ·)
      let s2 := clearBad s1 rows
      complete (if 32 < count then { s2 with c := zeroRows s2.c g (g + count) } else rows.foldl zeroRow s2))

/-- One element of MREAD (R239) and its flags. -/
def readElem (ty mode : Nat) (sat : Bool) (q v : BitVec 32) : Lane × BitVec 6 :=
  if tyFloat ty then
    let p := numMulExact (readF32 v) (readF32 q)
    let r : BitVec 32 × BitVec 6 := match p.1 with
      | .nan _ => (nan32, 0)
      | .inf n => fpConvert 8 ty mode sat false (inf32 n)
      | .fin d => deliver ty mode sat false d
    (holdAs ty (r.1.setWidth 64), r.2 ||| p.2)
  else match readF32 q with
    | .fin d =>
      let x := dyMul { neg := decide (v.toInt < 0), mant := v.toInt.natAbs, exp := 0 } d
      let r := roundQ x mode
      if sat then satInt ty r else (wrapInt ty r, 0)
    | _ => (0, fNV)

/-- MREAD (R239). -/
def execMread (v a : Reg) (n : BitVec 2) (i : BitVec 1) (q : BitVec 2) (r : BitVec 3) (t : BitVec 4) (s : State) :
    Host.Outcome State Fault Refusal :=
  let w := encode (.mread v a n i q r t)
  .next (onCompute s w fun s =>
    let g := 128 * n.toNat + (rd s a).toNat
    if 128 ≤ (rd s a).toNat ∨ holdsRow s g = false then illegal s w
    else match matrixError s [g] (some q.toNat) with
      | some e => trapHere s 8 e
      | none =>
        let s1 := drainMatrix s
        if checkFailed s s1 then complete s1 else
        let mode := if r.toNat ≠ 7 then r.toNat
          else if tyFloat t.toNat then s1.t.a.fctl.toNat % 8 else s1.t.a.fxrm.toNat
        let sc := s1.t.a.q[q.toNat]'(by have := q.isLt; omega)
        let els := (tileRow s1.c g).map (readElem t.toNat mode (i == 1) sc)
        nameInPlace (raise s1 (els.foldl (fun f e => f ||| e.2) 0)) v.toNat (residentVal t.toNat (els.map Prod.fst)))

/-- MSCALE (R240). -/
def execMscale (q : BitVec 3) (a : Reg) (s : State) : Host.Outcome State Fault Refusal :=
  .next (onCompute s (encode (.mscale q a)) fun s =>
    complete (clearBad (modA s fun r => { r with q := r.q.set q.toNat ((rd s a).setWidth 32) q.isLt }) [scaleKey s q.toNat]))

end Sys2Proof.Machine
end

