-- ==== Sys2Proof/Machine/Engine.lean ====
section
/-! DEFINITION. Machine/Engine.lean: the copy engines' instructions, event flags, UIRET and ICINV (R49, R253 to R269). -/

namespace Sys2Proof.Machine

open Sys2Proof

/-- The status word with a cause alone (R255). -/
def causeOnly (c : Nat) : Word := wd (c * 2 ^ 60)

/-- Must an engine instruction on flag k wait (R253)? -/
def engineBusy (s : State) (k : Nat) : Bool := (outstanding s).contains k || decide (engineLimit s ≤ coreEngines s)

/-- An engine operation is issued (R257): flag k is cleared and its status word says outstanding; the operation may begin once
its chunk has committed. -/
def issueEngine (s : State) (k : BitVec 4) (o : EngineOp) : State :=
  let bit : BitVec 16 := BitVec.ofNat 16 (2 ^ k.toNat)
  let s1 := modA s fun a => { a with done := a.done &&& ~~~bit, efault := a.efault &&& ~~~bit,
                                     evs := a.evs.set k.toNat (causeOnly 14) k.isLt }
  complete (modT { s1 with engines := s1.engines ++ [o] } fun t =>
    { t with chunk := { t.chunk with out := t.chunk.out ++ [.engine s.cur k.toNat] } })

/-- Wait for flag k to be free (R253), then act. DESIGN CHOICE (log entry 94): the wait does not close the open chunk. -/
def whenFree (s : State) (k : BitVec 4) (f : State → State) : State :=
  if engineBusy s k.toNat then modT s fun t => { t with stall := .engine k.toNat } else f s

/-- ACOPY (R257). -/
def execAcopy (d a b : Reg) (k : BitVec 4) (s : State) : Host.Outcome State Fault Refusal :=
  .next (whenFree s k fun s =>
    issueEngine s k { tid := s.cur, k := k.toNat, src := rd s a, dst := rd s d, count := (rd s b).toNat, shapes := none,
                      go := false, result := none, pos := 0, chunks := 0, chunk := none, was := [], effort := Effort.zero })

/-- ACOPYT (R258): two shape records at X[B]. -/
def execAcopyt (d a b : Reg) (k : BitVec 4) (s : State) : Host.Outcome State Fault Refusal :=
  .next (aligned s (rd s b) 128 fun s => whenFree s k fun s =>
    match loadNat s (rd s b) 64 with
    | (s1, .error f) => fltTrap s1 f
    | (s1, .ok v) => match loadNat s1 (rd s1 b + 64) 64 with
      | (s2, .error f) => fltTrap s2 f
      | (s2, .ok w) =>
        issueEngine s2 k { tid := s2.cur, k := k.toNat, src := rd s2 a, dst := rd s2 d, count := 0,
                           shapes := some (shapeOf v, shapeOf w), go := false, result := none, pos := 0, chunks := 0,
                           chunk := none, was := [], effort := Effort.zero })

/-- EVWAIT (R260). DESIGN CHOICE (log entry 94): its wait does not close the open chunk, not even where the operation was issued in that
chunk and begins only at its commit. -/
def execEvwait (d : Reg) (k : BitVec 4) (s : State) : Host.Outcome State Fault Refusal :=
  .next (
    if s.t.a.done.getLsbD k.toNat then complete (wr s d (s.t.a.evs[k.toNat]'(k.isLt)))
    else if (outstanding s).contains k.toNat then modT s fun t => { t with stall := .evwait k.toNat }
    else complete (wr s d (causeOnly 15)))

/-- EVCLR (R261). -/
def execEvclr (d : Reg) (k : BitVec 4) (s : State) : Host.Outcome State Fault Refusal :=
  let bit : BitVec 16 := BitVec.ofNat 16 (2 ^ k.toNat)
  .next (
    if (outstanding s).contains k.toNat then complete (wr s d (causeOnly 14))
    else complete (wr (modA s fun a => { a with done := a.done &&& ~~~bit, efault := a.efault &&& ~~~bit,
                                                evs := a.evs.set k.toNat 0 k.isLt }) d (s.t.a.evs[k.toNat]'(k.isLt))))

/-- BEV (R262). -/
def execBev (k c : Reg) (o : BitVec 16) (s : State) : Host.Outcome State Fault Refusal :=
  let bits := if c.toNat < 2 then s.t.a.done else s.t.a.efault
  let want := decide (c.toNat % 2 = 0)
  .next (if bits.getLsbD k.toNat = want then branchTo s (relTarget s.t.a.pc o.toInt) else complete s)

/-- UIRET (R268). -/
def execUiret (s : State) : Host.Outcome State Fault Refusal :=
  .next (
    if !s.t.a.uiactive then illegal s (encode .uiret)
    else rebase (modA (commitOpen (countOne s)) fun a =>
      let h := a.shadow
      { a with x := (((a.x.set 28 h[0]).set 29 h[1]).set 30 h[2]).set 31 h[3], uiactive := false, pc := a.uipc.toNat }))

/-- The part of the physical page that a virtual page's bytes lo to hi − 1 translate to, as code words of the caches: first
and last word number. DESIGN CHOICE (log entry 95): a page is found by its present translation, and one that has none is passed over. -/
def codeRange (s : State) (page lo hi : Nat) : Option (Nat × Nat) :=
  match leafFor s (who s) .fetch (page * 65536) with
  | .error _ => none
  | .ok l =>
    let pa := l.place (page * 65536)
    some ((pa + lo / 64 * 64) / 8, (pa + (hi + 63) / 64 * 64) / 8 - 1)

/-- The code words that a byte range covers, by whole lines (R269). -/
def codeRanges (s : State) (va n : Nat) : List (Nat × Nat) :=
  (List.range ((va + n - 1) / 65536 - va / 65536 + 1)).filterMap fun i =>
    let page := va / 65536 + i
    codeRange s page (if i = 0 then va % 65536 else 0)
      (if page = (va + n - 1) / 65536 then (va + n - 1) % 65536 + 1 else 65536)

/-- ICINV (R269): a range longer than 16 MiB invalidates the caches whole. -/
def execIcinv (a b : Reg) (s : State) : Host.Outcome State Fault Refusal :=
  let va := (rd s a).toNat
  let n := (rd s b).toNat
  .next (closeThen s fun s =>
    if n = 0 then s
    else if 16777216 < n then { s with c := { s.c with icache := [] } }
    else
      let r := codeRanges s va n
      { s with c := { s.c with icache := s.c.icache.filter fun e =>
          !(r.any fun x => decide (x.1 ≤ e.1) && decide (e.1 ≤ x.2)) } })

end Sys2Proof.Machine
end

