-- ==== Sys2Proof/Machine/Tasks.lean ====
section
/-! DEFINITION. Machine/Tasks.lean: the task unit's instructions (R311 to R332) and STRIP (R328). -/

namespace Sys2Proof.Machine

open Sys2Proof

/-- A queue designator that names a local queue (R311). -/
def localQueue (q : Word) : Option Nat :=
  if q.toNat < 2097152 ∧ q.toNat / 1024 = moduleNo then some (q.toNat % 1024) else none

/-- The ownership check of R311 on a local queue: a permission fault with the index. -/
def ownQueue (s : State) (q : Word) (n : Nat) (f : State → State) : State :=
  if qOwner s n = s.t.vfid then f s else trapHere s 4 q

/-- The check of R311 on a counter. -/
def ownCounter (s : State) (i : Word) (f : State → State) : State :=
  if i.toNat < 16384 ∧ counterOwner s i.toNat = s.t.vfid then f s else trapHere s 4 i

/-- The check of R311 on a watermark slot. -/
def ownSlot (s : State) (i : Word) (f : State → State) : State :=
  if i.toNat < 4096 ∧ slotOwner s i.toNat = s.t.vfid then f s else trapHere s 4 i

/-- A message that leaves at the commit of the open chunk. -/
def queueMsg (s : State) (m : Msg) : State :=
  modT s fun t => { t with chunk := { t.chunk with out := t.chunk.out ++ [m] } }

/-- Is a descriptor valid for a VFID (R313)? -/
def descValid (s : State) (d : List Byte) : Bool :=
  let ctr (off : Nat) : Bool := let i := dfld d off 2; i == 0xFFFF || (decide (i < 16384) && counterOwner s i == s.t.vfid)
  let w := dfld d 78 2
  let g := dfld d 80 2
  dfld d 64 2 != 0 && dfld d 66 2 != 0 && dfld d 68 2 != 0 && decide (dfld d 70 1 < 4) && decide (dfld d 71 1 < 2) &&
  ctr 72 && ctr 74 && ctr 76 &&
  (w == 0xFFFF || (decide (w < 4096) && slotOwner s w == s.t.vfid)) && (g == 0xFFFF || decide (g < 4096))

/-- The lowest free entry of the pool (R312; which entry is taken is not stated). -/
def freeEntry (s : State) : Nat :=
  ((List.range (s.panels.length + 1)).find? fun i => !(s.panels.any fun p => p.entry == i)).getD 0

/-- An entry is taken for a panel (R316, R321): TENANT is the posting VFID; the home is the poster's die, or HOME for a
steward. -/
def takeEntry (s : State) (q : Nat) (d : List Byte) : State × Panel :=
  let p : Panel :=
    { entry := freeEntry s, seq := s.nextSeq, queue := q,
      desc := d.take 82 ++ leBytes 2 s.t.vfid ++ d.drop 84,
      home := if isSteward s.cur then qHome s q else dieOf (coreOf s.cur), prio := dfld d 70 1 % 4, aged := 0,
      posted := false, ready := false, order := 0, band := 0, row := 0, live := 0, dead := false }
  (queueMsg { s with panels := s.panels ++ [p], nextSeq := s.nextSeq + 1 } (.post p.tid), p)

/-- The result of PANPOST on its descriptor (R316), after its checks that trap. -/
def postResult (s : State) (q : Nat) (d : List Byte) : List Word × State :=
  if qKind s q = 1 then ([-3], s)
  else if !descValid s d then ([-5], s)
  else if qCap s q ≤ qHeld s q ∨ 65536 ≤ poolUsed s then ([-1], s)
  else let r := takeEntry s q d; ([wd r.2.tid], r.1)

/-- PANPOST (R316): every earlier pass has committed. -/
def execPanpost (d a b : Reg) (s : State) : Host.Outcome State Fault Refusal :=
  .next (aligned s (rd s b) 64 fun s =>
    match loadLines s (rd s b) 2 with
    | (s1, .error f) => fltTrap s1 f
    | (s0, .ok bytes) =>
      let s1 := settleSealed s0
      let put (_s : State) (r : List Word × State) : State := complete (wr r.2 d (r.1.getD 0 0))
      match localQueue (rd s1 a) with
      | none => put s1 (answered s1 fun s => ([-2], s))
      | some q => ownQueue s1 (rd s1 a) q fun s => put s (answered s fun s => postResult s q bytes))

/-- Four results from a register up (R320). -/
def put4 (s : State) (d : Reg) (r : List Word) : State :=
  wr (wr (wr (wr s d (r.getD 0 0)) (d + 1) (r.getD 1 0)) (d + 2) (r.getD 2 0)) (d + 3) (r.getD 3 0)

/-- PANGET ends with its results: it runs as a chunk of its own that is never squashed (R320). -/
def pangetDone (s : State) (d : Reg) (r : List Word) : State := rebase (commitOpen (complete (put4 s d r)))

/-- The descriptor copy of PANGET, or the record of BARINFO, may be written at an address (R320, R339): the fault where not. -/
def writable128 (s : State) (va : Word) : Option Flt :=
  match lookup s (who s) .write va with
  | .error c => some (flt c va)
  | .ok (k, _) =>
    if isDevice k then some (flt 3 va)
    else if tblStore s (who s) .write k then some { cause := 4, addr := va, toH := true }
    else match lookup s (who s) .write (va + 64) with
      | .error c => some (flt c (va + 64))
      | .ok (j, _) => if isDevice j then some (flt 3 (va + 64)) else if tblStore s (who s) .write j then some { cause := 4, addr := va + 64, toH := true } else none

/-- Store 128 bytes (R320, R339), or the fault of one of their two lines, with nothing written. -/
def store128 (s : State) (va : Word) (b : List Byte) : State × Option Flt :=
  match storeNat s va 64 (bytesNat (b.take 64)) with
  | (_, .error f) => (s, some f)
  | (s1, .ok _) => match storeNat s1 (va + 64) 64 (bytesNat (b.drop 64)) with
    | (_, .error f) => (s, some f)
    | (s2, .ok _) => (s2, none)

/-- Tile rows that the thread that moves holds. -/
def rowsHeld (s : State) : Nat := if isSteward s.cur then 0 else s.c.rows (s.cur % 2)

/-- The renegotiation of a PANGET (R101, R320): no squash takes it back. -/
def renegotiateNow (s : State) : State :=
  modT (renegotiate s) fun t => { t with chunk := { t.chunk with share := none, undo := [], given := [] } }

/-- The die that counts as a requester's own (R321). -/
def ownDie (s : State) (q : Nat) : Nat := if isSteward s.cur then qHome s q else dieOf (coreOf s.cur)

/-- PANGET ends with a grant (R320): it enters the thread's grant table, and the panel's descriptor is written. -/
def pangetGrant (s : State) (d : Reg) (copy : Option Word) (r : List Word) (tid : Nat) (desc : List Byte) : State :=
  let f (i : Nat) : Nat := (r.getD i 0).toNat
  let s1 := modT s fun t => { t with grants := t.grants ++ [{ row0 := f 0, col0 := f 1, rows := f 2, cols := f 3, tid := tid }] }
  let s2 := match copy with
    | none => s1
    | some va => (store128 s1 va desc).1
  pangetDone (settle s2) d r

/-- A grant is taken from a panel and its descriptor written (R319, R320). -/
def pangetTake (s : State) (d : Reg) (copy : Option Word) (p : Panel) (rows : Nat) : State :=
  let r := answered s fun s =>
    let g := takeGrant s p rows
    ([wd g.2.row0, wd g.2.col0, wd g.2.rows, wd g.2.cols], g.1)
  pangetGrant r.2 d copy r.1 p.tid p.desc

/-- The recorded response of a PANGET in a replay (R422, R423): one with rows is a grant. The descriptor that its copy writes stands in no
record, nor does the panel's number: the bytes are free, and the number is 0 (DESIGN CHOICE, log entry 129). -/
def pangetRecorded (s : State) (d : Reg) (copy : Option Word) (r : List Word) : State :=
  let s1 := obtain s 7 r
  if r.getD 2 0 = 0 then pangetDone s1 d r
  else pangetGrant (useFree s1) d copy r 0 ((List.range 128).map (Config.replayDescriptor s.free))

/-- A result of PANGET with no grant (R320). -/
def pangetStatus (s : State) (d : Reg) (st : Word) : State :=
  let r := answered s fun s => ([st, 0, 0, 0], s)
  pangetDone r.2 d r.1

/-- PANGET asks a queue for a grant (R318 to R321). `remote`: the wait for a panel of the requester's own die is over. -/
def pangetAsk (s : State) (d : Reg) (q : Nat) (copy : Option Word) (remote : Bool) : State :=
  let captured (f : State → State) : State := capturedFirst s (match copy with
    | none => []
    | some va => overlapped s va 128) f
  match recordNext s 7 with
  | some r => captured fun s => pangetRecorded s d copy (r.dw.drop 2)
  | none => match pickPanel s q s.cur (ownDie s q) with
    | none => pangetStatus s d 0
    | some (p, own) =>
      if !own && !remote then modT s fun t => { t with stall := .panget 1024 }
      else
        let rows := grantRows p s.c.fcur (rowsHeld s)
        if rows = 0 then pangetStatus s d 2 else captured fun s => pangetTake s d copy p rows

/-- PANGET (R320): the checks in their order. -/
def pangetOp (remote : Bool) (d a b : Reg) (s : State) : State := settled s fun s =>
  let s1 := modT (commitOpen s) fun t => { t with stall := .none }
  match localQueue (rd s1 a) with
  | none => pangetStatus s1 d 3
  | some q => ownQueue s1 (rd s1 a) q fun s =>
    if qKind s q = 1 then pangetStatus s d 3
    else if 4 ≤ s.t.grants.length then pangetStatus s d 1
    else
      let s2 := renegotiateNow s
      if b = 0 then pangetAsk s2 d q none remote
      else aligned s2 (rd s2 b) 64 fun s => match writable128 s (rd s b) with
        | some f => fltTrap s f
        | none => pangetAsk s d q (some (rd s b)) remote

/-- PANGET (R320). -/
def execPanget (d a b : Reg) (s : State) : Host.Outcome State Fault Refusal := .next (pangetOp false d a b s)

/-- An instruction that closes the open chunk before itself, waits for its commit, acts and completes (R272). -/
def closeBefore (s : State) (f : State → State) : State := rebase (complete (f (commitOpen s)))

/-- PANDONE (R322): the oldest grant that the four registers name. -/
def execPandone (d : Reg) (s : State) : Host.Outcome State Fault Refusal :=
  let same (g : Grant) : Bool := wd g.row0 == rd s d && wd g.col0 == rd s (d + 1) && wd g.rows == rd s (d + 2) &&
    wd g.cols == rd s (d + 3)
  .next (match s.t.grants.find? same with
    | none => illegal s (encode (.pandone d))
    | some g => closeBefore s fun s =>
      retireGrant (modT (settleSealed s) fun t => { t with grants := t.grants.erase g }) g.tid)

/-- A signal that a unit takes up at the commit of its chunk: every earlier pass has committed (R324, R329). -/
def signal (m : Msg) (s : State) : State := complete (queueMsg (settleSealed s) m)

/-- WMPUB (R329). -/
def execWmpub (a b : Reg) (s : State) : Host.Outcome State Fault Refusal :=
  .next (ownSlot s (rd s a) fun s => signal (.wmpub (rd s a).toNat (rd s b)) s)
/-- DEPSET (R324). -/
def execDepset (a b : Reg) (s : State) : Host.Outcome State Fault Refusal :=
  .next (ownCounter s (rd s a) fun s => signal (.depset (rd s a).toNat ((rd s b).setWidth 32)) s)
/-- DEPDEC (R324). -/
def execDepdec (a : Reg) (s : State) : Host.Outcome State Fault Refusal :=
  .next (ownCounter s (rd s a) fun s => signal (.depdec (rd s a).toNat) s)

/-- Messages of chunks that have not committed, of the threads for which a test holds. -/
def outOf (s : State) (f : Thread → Bool) : List Msg :=
  ((liveTids s).map fun i =>
    let t := threadAt s i
    if f t then t.chunk.out ++ ((t.closed.map Chunk.out).getD []) else []).flatten

/-- Is a message an item for a local queue? -/
def isItem (q : Nat) (m : Msg) : Bool :=
  match m with
  | .item k _ _ _ => k == q
  | _ => false

/-- Is a message an item for a queue of another module? -/
def isRemoteItem (q : Nat) (m : Msg) : Bool :=
  match m with
  | .remoteItem _ _ k _ _ _ => k == q
  | _ => false

/-- Is a place free for one more item of the thread that moves (R312, R325)? Places that uncommitted chunks have taken count: at a queue of
another module, those of its own VFID's senders. -/
def placeFree (s : State) (q : Word) : Bool :=
  match localQueue q with
  | some n =>
    let held := (qItems s n).length + (outOf s fun _ => true).countP (isItem n)
    decide (held < 8 * qCap s n) && (decide (held % 8 ≠ 0) || decide (poolUsed s < 65536))
  | none => decide ((outOf s fun t => t.vfid == s.t.vfid).countP (isRemoteItem q.toNat) <
      spGet 0 s.credits (s.t.vfid * 2097152 + q.toNat))

/-- A status that QSEND gives before it sends (R325): 2 malformed or not registered, 3 a panel queue. -/
def qsendRefused (s : State) (q : Word) : Option Word :=
  if 2097152 ≤ q.toNat then some 2
  else match localQueue q with
    | some n => if qKind s n = 0 then some 3 else none
    | none => if s.credits.any fun e => e.1 == s.t.vfid * 2097152 + q.toNat then none else some 2

/-- The form of a QSEND (R325). -/
inductive SendForm where
  /-- QSEND. -/
  | plain
  /-- QSEND.NB. -/
  | nb
  /-- QSEND.A. -/
  | ack
  deriving DecidableEq, Repr

/-- QSEND's own work once its queue may be used (R325): the place, every earlier pass's commit, the item, the answer; a recorded answer in a replay (R423). -/
def qsendAct (f : SendForm) (d b : Reg) (q : Word) (s : State) : State :=
  let put (_s : State) (r : List Word × State) : State := complete (wr r.2 d (r.1.getD 0 0))
  let item (s : State) : State := queueMsg s (match localQueue q with
    | some n => .item n (rd s b) (rd s (b + 1)) none
    | none => .remoteItem s.cur s.t.vfid q.toNat (rd s b) (rd s (b + 1)) (decide (f = .ack)))
  let item (s : State) : State := item (settleSealed s)
  match qsendRefused s q with
  | some st => put s (answered s fun s => ([st], s))
  | none =>
    if (recordNext s 7).isSome && decide (f ≠ .ack) then put s (answered s fun s => ([0], s))
    else if !placeFree s q then
      (if f = .nb then put s (answered s fun s => ([1], s)) else modT s fun t => { t with stall := .qsend q.toNat })
    else if f ≠ .ack then put s (answered s fun s => ([0], item s))
    else
      let s1 := commitOpen (countOne (item s))
      match localQueue q with
      | some _ =>
        let r := answered s1 fun s => ([0], s)
        rebase (setPc (wr r.2 d (r.1.getD 0 0)) (s.t.a.pc + 4))
      | none => modT s1 fun t => { t with stall := .answer d }

/-- QSEND (R325), with the ownership check of R311 on a local queue. -/
def qsendOp (f : SendForm) (d a b : Reg) (s : State) : Host.Outcome State Fault Refusal :=
  let q := rd s a
  .next (match localQueue q with
    | some n => ownQueue s q n (qsendAct f d b q)
    | none => qsendAct f d b q s)

/-- QSEND (R325). -/
def execQsend (d a b : Reg) (s : State) : Host.Outcome State Fault Refusal := qsendOp .plain d a b s
/-- QSEND.NB (R325). -/
def execQsendNb (d a b : Reg) (s : State) : Host.Outcome State Fault Refusal := qsendOp .nb d a b s
/-- QSEND.A (R325). -/
def execQsendA (d a b : Reg) (s : State) : Host.Outcome State Fault Refusal := qsendOp .ack d a b s

/-- The response of the task unit to a QTAKE (R326): status, then the item. -/
def takeItem (s : State) (q : Nat) : List Word × State :=
  if qKind s q = 0 then ([3], s)
  else match popItem s q with
    | none => ([1], s)
    | some (it, s1) => ([0, it.lo, it.hi], s1)

/-- QTAKE (R326): a chunk of its own that is never squashed. -/
def execQtake (d a b : Reg) (s : State) : Host.Outcome State Fault Refusal :=
  let put (_s : State) (r : List Word × State) : State :=
    let s1 := if r.1.getD 0 0 = 0 then wr (wr r.2 d (r.1.getD 1 0)) (d + 1) (r.1.getD 2 0) else r.2
    rebase (commitOpen (complete (wr s1 b (r.1.getD 0 0))))
  .next (settled s fun s => let s1 := commitOpen s; match localQueue (rd s1 a) with
    | none => put s1 (answered s1 fun s => ([3], s))
    | some q => ownQueue s1 (rd s1 a) q fun s => put s (answered s fun s => takeItem s q))

/-- WaitSlot (R328): the slot has reached the bound, or it is poisoned and traps, or the chunk commits and the thread stalls. -/
def waitSlot (s : State) (slot bound : Nat) (f : State → State) : State :=
  let w := slotAt s slot
  if w.poison then trapHere s 8 (wd slot)
  else if bound ≤ w.val.toNat then f s
  else modT (commitOpen (countOne s)) fun t => { t with stall := .strip slot bound }

/-- The bases of the strip advance by n elements (R328). -/
def advanceBases (s : State) (n : Nat) : State :=
  let s1 := s.t.a.bases.foldl (fun s b => wr s b.1 (rd s b.1 + wd n * b.2)) s
  modA s1 fun a => { a with bases := [] }

/-- Does a STRIP that waits belong to the level and handler in which the thread that moves executes (R328)? -/
def StripWait.mine (s : State) (w : StripWait) : Bool := w.lvl == s.t.lvl && w.ui == s.t.a.uiactive

/-- A STRIP whose wait is over loops (R328, R415). -/
def endStrip (target : Nat) (s : State) : State :=
  branchTo (modA s fun a => { a with strip := a.strip.filter fun w => !w.mine s }) target

/-- STRIP's effects (R328), its slot checked: the state moves on; where a wait is called for it is remembered with the STRIP, so
that a resumed STRIP only waits again. -/
def stripAct (d o b p : Reg) (slot : Nat) (s : State) : State :=
  let pc := s.t.a.pc
  let n := s.t.a.vlLen
  if d = 0 then waitSlot s slot (s.t.a.ste + n) complete
  else
    let s1 := advanceBases s n
    let x := (rd s1 d).toNat
    let rem := x - Nat.min n x
    let s2 := modA (wr s1 d (wd rem)) fun a => { a with sc := a.sc + 1 }
    if rem = 0 then complete (modA s2 fun a => { a with ste := 0, vlLen := 0 })
    else
      let len := Nat.min s.t.a.vlGrant rem
      let ste := (s.t.a.ste + n) % 18446744073709551616
      let target := relTarget pc (-((32 * o.toNat + p.toNat : Nat) : Int))
      let s3 := modA s2 fun a => { a with ste := ste, vlLen := len }
      if b = 0 then branchTo s3 target
      else
        let w : StripWait := { pc := pc, lvl := s3.t.lvl, ui := s3.t.a.uiactive, slot := slot, bound := ste + len, target := target }
        waitSlot (modA s3 fun a => { a with strip := w :: a.strip.filter fun x => !x.mine s3 }) slot (ste + len) (endStrip target)

/-- STRIP (R328): illegal on a steward (R315). One that has taken its effects and was resumed waits again. -/
def execStrip (d o b p : Reg) (s : State) : Host.Outcome State Fault Refusal :=
  .next (onCompute s (encode (.strip d o b p)) fun s =>
    match s.t.a.strip.find? fun w => w.mine s && w.pc == s.t.a.pc with
    | some w => waitSlot s w.slot w.bound (endStrip w.target)
    | none => if b = 0 then stripAct d o b p 0 s else ownSlot s (rd s b) fun s => stripAct d o b p (rd s b).toNat s)

end Sys2Proof.Machine
end

