-- ==== Sys2Proof/Machine/Groups.lean ====
section
/-! DEFINITION. Machine/Groups.lean: groups and barriers (R333 to R342). -/

namespace Sys2Proof.Machine

open Sys2Proof

/-- The check of R333 on a group identifier. -/
def ownGroup (s : State) (g : Word) (f : Nat → State → State) : State := settled s fun s =>
  if g.toNat < 4096 ∧ groupOwner s g.toNat = s.t.vfid then f g.toNat s else trapHere s 4 g

/-- Is a group's record poisoned (R342)? -/
def groupBad (s : State) (g : Nat) : Bool := ((groupAt s g).map Group.poison).getD false

/-- A poisoned record traps as uncorrectable data error with the identifier (R342). -/
def soundGroup (s : State) (g : Nat) (f : State → State) : State := if groupBad s g then trapHere s 8 (wd g) else f s

/-- A request to the barrier unit goes out after the chunk has committed (R335), and its status comes back. -/
def groupAct (d : Reg) (s : State) (f : State → Word × State) : State :=
  closeThen s fun s =>
    let r := answered s fun s => let x := f s; ([x.1], x.2)
    wr r.2 d (r.1.getD 0 0)

/-- GJOIN at the unit (R336). A poisoned record is joined as another is, with status 1 (DESIGN CHOICE, log entry 114). A member that is in 8 groups
has status 2 (DESIGN CHOICE, log entry 141). -/
def joinGroup (s : State) (g : Nat) : Word × State :=
  let ap := s.t.a.sc.toInt - 1
  let m : Member := { tid := s.cur, ap := ap, away := none }
  let enter (s : State) : State := modT s fun t => { t with groups := t.groups ++ [g] }
  if isMember s g s.cur then (2, s)
  else if 8 ≤ s.t.groups.length then (3, s)
  else match groupAt s g with
    | none =>
      (0, enter (putGroup s g (Group.fresh s.t.vfid m)))
    | some r => (1, enter (putGroup s g (recompute { r with members := r.members ++ [m] })))

/-- GJOIN (R336). -/
def execGjoin (d a : Reg) (s : State) : Host.Outcome State Fault Refusal :=
  .next (ownGroup s (rd s a) fun g s => groupAct d s fun s => joinGroup s g)

/-- GLEAVE at the unit (R336). -/
def quitGroup (s : State) (g : Nat) : Word × State :=
  if !isMember s g s.cur then (2, s)
  else
    let r := leaveGroup s g s.cur
    (wd (b2n r.2), modT r.1 fun t => { t with groups := t.groups.filter (· != g) })

/-- GLEAVE (R336). -/
def execGleave (d a : Reg) (s : State) : Host.Outcome State Fault Refusal :=
  .next (ownGroup s (rd s a) fun g s => groupAct d s fun s => quitGroup s g)

/-- BARA (R337): every earlier pass has committed; the unit holds an arrival beyond its open phases, and the thread stalls (R334). -/
def execBara (d a : Reg) (s : State) : Host.Outcome State Fault Refusal :=
  .next (ownGroup s (rd s a) fun g s => soundGroup s g fun s0 =>
    let s := settleSealed s0
    let p := s.t.a.sc.toInt
    match groupAt s g with
    | none => groupAct d s fun s => (2, s)
    | some r => match memberAp r s.cur with
      | none => groupAct d s fun s => (2, s)
      | some ap =>
        if p ≤ ap then groupAct d s fun s => (1, s)
        else if r.cp + 64 < p then
          modT (commitOpen (countOne s)) fun t => { t with stall := .bara g p s.c.fcur d }
        else groupAct d s fun s => (0, acceptArrival s g s.cur s.c.fcur p))

/-- Has every member arrived at phase k (R338)? At once where the phase is completed. -/
def allArrived (r : Group) (k : Int) : Bool := decide (k ≤ r.cp) || r.members.all fun m => decide (k ≤ m.ap)

/-- BARW (R338). -/
def execBarw (d a n : Reg) (s : State) : Host.Outcome State Fault Refusal :=
  .next (ownGroup s (rd s a) fun g s => soundGroup s g fun s =>
    let k := s.t.a.sc.toInt - n.toNat
    match groupAt s g with
    | none => groupAct d s fun s => (2, s)
    | some r =>
      if !isMember s g s.cur then groupAct d s fun s => (2, s)
      else if allArrived r k then groupAct d s fun s => (0, s)
      else modT (commitOpen (countOne s)) fun t => { t with stall := .barw g k d })

/-- The straggler record as BARINFO writes it (R339). -/
def recordBytes (p : Int) (l : List (Nat × Nat × Nat × Word)) : List Byte :=
  fitLen 128 (leBytes 8 (BitVec.ofInt 64 p).toNat ++ leBytes 8 l.length ++
    (l.map fun (e : Nat × Nat × Nat × Word) =>
      leBytes 2 e.1 ++ leBytes 2 e.2.1 ++ leBytes 4 e.2.2.1 ++ leBytes 8 e.2.2.2.toNat).flatten)

/-- The record that BARINFO would write, or its status (R339). A replay takes its status from its record, and as the journal holds that alone (R420, R422)
each byte of the straggler record is a free value (log entry 129). -/
def barinfoRecord (s : State) (g : Nat) : Except Word (List Byte) :=
  if replaying s then
    (let st := ((recordFor s 7 s.cur (s.t.chunk.num + 1)).map fun r => r.dw.getD 2 0).getD 0
     if st = 0 then .ok ((List.range 128).map (Config.replayDescriptor s.free)) else .error st)
  else match groupAt s g with
  | none => .error 2
  | some r => match r.record with
    | none => .error 1
    | some (p, l) => .ok (recordBytes p l)

/-- BARINFO writes the record (R339): its chunk commits, the faults of the store are checked as memory is then, and the store is made. -/
def barinfoWrite (d : Reg) (va : Word) (bytes : List Byte) (s : State) : State :=
  let s1 := commitOpen (countOne s)
  match writable128 s1 va with
  | some f => fltTrap s1 f
  | none =>
    let r := answered (if replaying s1 then useFree s1 else s1) fun s => ([0], s)
    match store128 r.2 va bytes with
    | (s2, some f) => fltTrap s2 f
    | (s2, none) => rebase (commitOpen (setPc (wr s2 d (r.1.getD 0 0)) (s2.t.a.pc + 4)))

/-- BARINFO (R46, R339): alignment comes before ownership, a poisoned record and the faults of its store, in this order (DESIGN CHOICE, log
entry 112); the store overlapping a leaf waits for a capture pass (R149). Its store is a chunk of its own (DESIGN CHOICE, log entry 113). -/
def execBarinfo (d a b : Reg) (s : State) : Host.Outcome State Fault Refusal :=
  .next (aligned s (rd s b) 64 fun s => ownGroup s (rd s a) fun g s => soundGroup s g fun s =>
    match writable128 s (rd s b) with
    | some f => fltTrap s f
    | none => match barinfoRecord s g with
      | .error st => groupAct d s fun s => (st, s)
      | .ok bytes => capturedFirst s (overlapped s (rd s b) 128) (barinfoWrite d (rd s b) bytes))

end Sys2Proof.Machine
end

