-- ==== Sys2Proof/Machine/Remote.lean ====
section
/-! DEFINITION. Machine/Remote.lean: the Caravan fabric (R364 to R375) and the host link (R376, R377): the remote instructions,
what arrives at the ports, and what comes back. -/

namespace Sys2Proof.Machine

open Sys2Proof

/-- The route table lists a module as present (R364, R382). -/
def present (s : State) (m : Nat) : Bool :=
  decide (m < 1152) && decide (fld (devGet s (0x40000C60000 + 8 * m)) 63 1 = 1)

/-- The checks of R369 on a domain address (R366) for an access of n bytes: the cause code where one fails. -/
def remoteFault (s : State) (da : Word) (n : Nat) : Option Nat :=
  if da.toNat % 1125899906842624 % n ≠ 0 then some 2
  else if fld da 61 3 ≠ 0 ∨ present s (fld da 50 11) = false then some 3
  else none

/-- A scalar remote access whose checks succeed (R369, R372). -/
def remoteCheck (s : State) (da : Word) (n : Nat) (f : State → State) : State :=
  match remoteFault s da n with
  | some c => trapHere s c da
  | none => f s

/-- A request leaves on VC0 after the open chunk has committed, and the thread stalls until its response (R369). Kind 0 is a
load, 1 + op an atomic. -/
def remoteAsk (d : Reg) (da : Word) (kind n : Nat) (operand expected : Word) (s : State) : State := settled s fun s =>
  let s1 := commitOpen s
  modT (sendMsg s1 (.request s1.cur da kind n operand expected)) fun t => { t with stall := .remote d n da }

/-- RLD (R369). -/
def execRld (d a : Reg) (sz : BitVec 2) (s : State) : Host.Outcome State Fault Refusal :=
  .next (remoteCheck s (rd s a) (sizeOf2 sz) (remoteAsk d (rd s a) 0 (sizeOf2 sz) 0 0))

/-- RST (R369): its packet leaves at the commit of its chunk. -/
def execRst (d a : Reg) (sz : BitVec 2) (s : State) : Host.Outcome State Fault Refusal :=
  let n := sizeOf2 sz
  .next (remoteCheck s (rd s a) n fun s =>
    complete (queueMsg s (.rst s.cur (rd s a) n (wd ((rd s d).toNat % 2 ^ (8 * n))))))

/-- RAMO (R369). -/
def execRamo (d a b : Reg) (o : BitVec 3) (s : State) : Host.Outcome State Fault Refusal :=
  .next (remoteCheck s (rd s a) 8 (remoteAsk d (rd s a) (1 + o.toNat) 8 (rd s b) (rd s d)))

/-- RRED (R370): a pass sink. A check of R369 that fails is a sink fault blamed on the RRED (R372). -/
def execRred (v a : Reg) (q k : BitVec 3) (s : State) : Host.Outcome State Fault Refusal :=
  let w := encode (.rred v a q k)
  .next (onCompute s w fun s =>
    let x := vreg s.t.a v
    let da := rd s a
    if !(x.ty == 8 || x.ty == 9 || (x.ty == 2 && q == 0)) then illegal s w
    else match remoteFault s da (tyBytes x.ty) with
      | some c =>
        takeTrap s { cause := c, addr := da, blame := blameWord 2 0 s.t.a.pc, stream := wd 8 } s.t.a.pc false false false
      | none =>
        force s [{ kind := .remote da (s.t.a.q[q.toNat]'(q.isLt)), srcs := [x], len := x.len, mask := maskOf s.t.a k,
                   blame := { kind := 2, pos := 0, pc := s.t.a.pc } }] [] true)

/-- The admission entry of a sender, the lowest where several name it (R367, R382). -/
def admission (s : State) (smod svf : Nat) : Option Nat :=
  (s.dev.filterMap fun e =>
    let o := e.1 - 0x40000C40000
    if 0x40000C40000 ≤ e.1 ∧ e.1 < 0x40000C50000 ∧ o % 16 = 0 ∧ fld e.2 63 1 = 1 ∧ fld e.2 16 6 = svf ∧
        fld e.2 0 11 = smod then some (o / 16) else none).head?

/-- Under whom a port agent translates for an admission entry (R367): level U, the local VFID, the domain root. It has no local
windows; bits [51:50] of its addresses are zero. -/
def portWho (s : State) (i : Nat) : Who :=
  { root := fld (devGet s (0x40000C40008 + 16 * i)) 12 38 * 4096, lvl := .u,
    vf := fld (devGet s (0x40000C40000 + 16 * i)) 32 6, asid := 0, fot := fld s.t.fotbase 16 34 * 65536, shadow := false,
    core := 176 }

/-- An offset as the virtual address that it is translated as (R367). -/
def offsetVa (off : Word) : Word := domainOffset off

/-- Agent code of the agent of a port (R420). -/
def portAgent (port : Nat) : Nat := 3145728 + port

/-- The port over which something comes from a module: the first that its route names, since an event says only who sends (R364, R382; DESIGN
CHOICE, log entry 19). -/
def portOf (s : State) (m : Nat) : Nat :=
  ((List.range 24).find? fun i => bitAt (devGet s (0x40000C60000 + 8 * m)).toNat i).getD 0

/-- The port that stands for the host link (R377; DESIGN CHOICE, log entry 19). -/
def hostPort : Nat := 24

/-- The number of the next chunk of a port's agent (R270). -/
def portNum (s : State) (port : Nat) : Nat := spGet 0 s.ports port

/-- A reservation that holds a slice ends (R287; log entry 46). -/
def freeSlice (s : State) (sl : Nat) : State :=
  match s.held.find? fun h => h.1 == sl with
  | none => s
  | some h => if replaying s then pauseHold s h.2 else endHold s h.2

/-- A chunk of a port agent, of the host-port agent or of IOD commits (R371, R377): it takes its place in chunk order, and its
write signature is broadcast. Its arrival has been journalled (R421). -/
def commitPort (s : State) (port : Nat) (c : Chunk) : State :=
  let foot := footprint c
  let s1 := foot.foldl freeSlice s
  let s2 := if foot.isEmpty then s1 else { s1 with grantLog := (portAgent port, portNum s1 port, foot) :: s1.grantLog }
  let s3 := broadcast s2 (portAgent port) c.writeL c.writeG
  wakeWaiters (pokeAll s3 c.writes.reverse) ((c.writes.map fun e => e.1 / 64).eraseDups)

/-- A chunk with no items. -/
def portChunk : Chunk := Chunk.empty 0 0

/-- Read lines into a port chunk. -/
def portRead (c : Chunk) (k n : Nat) : Chunk := { c with readL := (linesOf k n).foldl addItem c.readL }

/-- Write bytes into a port chunk. -/
def portWrite (c : Chunk) (k : Nat) (b : List Byte) : Chunk :=
  { c with writes := (keyed k b).reverse ++ c.writes, writeL := (linesOf k b.length).foldl addItem c.writeL }

/-- First word of what an ARRIVAL record holds of a packet (R420 names no layout; log entry 19): its code and four fields. -/
def packed (code a b c d : Nat) : Word := wd (code + a * 2 ^ 8 + b * 2 ^ 24 + c * 2 ^ 32 + d * 2 ^ 40)

/-- Words of bytes, eight to a word. -/
def packBytes (b : List Byte) : List Word :=
  (List.range ((b.length + 7) / 8)).map fun i => wd (leNat (fun j => b.getD j 0) (8 * i) 8)

/-- Words of 32-bit patterns, two to a word. -/
def packHalves (d : List (BitVec 32)) : List Word :=
  (List.range ((d.length + 1) / 2)).map fun i => wd ((d.getD (2 * i) 0).toNat + 2 ^ 32 * (d.getD (2 * i + 1) 0).toNat)

/-- The bytes of packed words. -/
def wordsBytes (l : List Word) : List Byte := (l.map fun x => leBytes 8 x.toNat).flatten

/-- The patterns of packed words. -/
def wordsHalves (l : List Word) : List (BitVec 32) := (l.map fun (x : Word) => [x.setWidth 32, (x >>> 32).setWidth 32]).flatten

/-- What arrives is performed as the next chunk of its port's agent (R270, R371). -/
def performNext (s : State) (port : Nat) (f : State → State) : State :=
  let t := f s
  { t with ports := spPut t.ports port (portNum s port + 1) }

/-- A packet or doorbell arrives at a port (R420, R421, R423): recorded in the sequence of each slice that its chunk takes, which no reservation
holds then. A replay ignores the live ports and performs what its records hold. -/
def arrival (s : State) (slices : List Nat) (port ch : Nat) (pkt : List Word) (f : State → State) : State :=
  if replaying s then s
  else performNext ((slices.foldl freeSlice s) |> fun s => slices.foldl (fun s sl =>
    journal s 4 sl (portAgent port) (portNum s port) (wd (port + ch * 2 ^ 32) :: pkt)) s) port f

/-- The place of a remote access, or its rejection (R367, R372): permission where the sender has no entry. -/
def portPlace (s : State) (smod svf : Nat) (kind : Kind) (off : Word) : State × Except Nat Nat :=
  match admission s smod svf with
  | none => (s, .error 4)
  | some i => match demand s (portWho s i) kind (offsetVa off) with
    | (s1, .error f) => (s1, .error f.cause)
    | (s1, .ok k) =>
      if isDevice k then (s1, .error 3)
      else if kind ≠ .write ∧ isPoisoned s1 k = true then (s1, .error 8)
      else (s1, .ok k)

/-- The slice of a remote access, for the journal; 0 where none is made. -/
def portSlice (s : State) (smod svf : Nat) (kind : Kind) (off : Word) : List Nat :=
  match (portPlace s smod svf kind off).2 with
  | .error _ => [0]
  | .ok k => [sliceOf (k / 64)]

/-- A remote access of n bytes is performed as one chunk (R371): what it read, or the cause of its rejection. -/
def portAccess (s : State) (smod svf : Nat) (kind : Kind) (off : Word) (n : Nat) (new : Nat → Option Nat) :
    State × Except Nat Nat :=
  match portPlace s smod svf kind off with
  | (s1, .error c) => (s1, .error c)
  | (s1, .ok k) =>
    let old := leNat (memByte s1) k n
    let c1 := if kind = .write then portChunk else portRead portChunk k n
    let c2 := match new old with
      | none => c1
      | some v => portWrite c1 k (leBytes n v)
    (commitPort s1 (portOf s smod) c2, .ok old)

/-- The cause and the value that go back to the sender. -/
def outcomeOf (r : Except Nat Nat) : Nat × Nat :=
  match r with
  | .error c => (c, 0)
  | .ok v => (0, v)

/-- An RLD packet is performed (R371). -/
def performRld (smod svf : Nat) (off : Word) (n : Nat) (s : State) : State :=
  let r := portAccess s smod svf .read off n fun _ => none
  sendMsg r.1 (.response smod svf (outcomeOf r.2).1 (wd (outcomeOf r.2).2))

/-- RLD_REQUEST (R371): after a module fault no slice grants (R406). -/
def execRldRequest (smod svf : Nat) (off : Word) (n : Nat) (s : State) : Host.Outcome State Fault Refusal :=
  .next (if s.stopped then s else
    arrival s (portSlice s smod svf .read off) (portOf s smod) 0 [packed 0 smod svf n 0, off] (performRld smod svf off n))

/-- An RST packet is performed (R371). -/
def performRst (smod svf : Nat) (off : Word) (n : Nat) (data : Word) (s : State) : State :=
  let r := portAccess s smod svf .write off n fun _ => some data.toNat
  sendMsg r.1 (.ack smod svf (outcomeOf r.2).1 off)

/-- RST_PACKET (R371). -/
def execRstPacket (smod svf : Nat) (off : Word) (n : Nat) (data : Word) (s : State) : Host.Outcome State Fault Refusal :=
  .next (if s.stopped then s else
    arrival s (portSlice s smod svf .write off) (portOf s smod) 0 [packed 1 smod svf n 0, off, data] (performRst smod svf off n data))

/-- The new doubleword of a RAMO (R308, R368, R369); none where a cas fails. -/
def ramoValue (op : Nat) (operand expected : Word) (old : Nat) : Option Nat :=
  let o := wd old
  if op = 0 then some (o + operand).toNat
  else if op = 1 then some (o &&& operand).toNat
  else if op = 2 then some (o ||| operand).toNat
  else if op = 3 then some (o ^^^ operand).toNat
  else if op = 4 then some (if operand.toInt < o.toInt then operand else o).toNat
  else if op = 5 then some (if o.toInt < operand.toInt then operand else o).toNat
  else if op = 6 then some operand.toNat
  else if o = expected then some operand.toNat else none

/-- A RAMO packet is performed (R369, R371). -/
def performRamo (smod svf : Nat) (off : Word) (op : Nat) (operand expected : Word) (s : State) : State :=
  let r := portAccess s smod svf .amo off 8 (ramoValue op operand expected)
  sendMsg r.1 (.response smod svf (outcomeOf r.2).1 (wd (outcomeOf r.2).2))

/-- RAMO_REQUEST (R369, R371). -/
def execRamoRequest (smod svf : Nat) (off : Word) (op : Nat) (operand expected : Word) (s : State) :
    Host.Outcome State Fault Refusal :=
  .next (if s.stopped then s else
    arrival s (portSlice s smod svf .amo off) (portOf s smod) 0 [packed 2 smod svf op 0, off, operand, expected]
      (performRamo smod svf off op operand expected))

/-- The updated code of an element of an RRED (R370). -/
def rredValue (ty : Nat) (scale : BitVec 32) (old : Nat) (v : BitVec 32) : Nat :=
  if ty = 2 then (old + v.toNat) % 4294967296
  else codeOf ty ((numAdd ty 0 false false (readF32 (fromCode ty old)) (numMulExact (readF32 v) (readF32 scale)).1).1.setWidth 64)

/-- The active elements of a packet: address and value. -/
def rredElems (off : Word) (n : Nat) (mask : BitVec 16) (data : List (BitVec 32)) : List (Word × BitVec 32) :=
  ((List.range 16).filter fun e => mask.getLsbD e).map fun e => (offsetVa (off + wd (e * n)), data.getD e 0)

/-- The places of the elements of a packet, each with its value, or the first fault: every page is checked before anything is written (R370,
R371). -/
def rredPlaces (s : State) (w : Who) : List (Word × BitVec 32) → State × Except Nat (List (Nat × BitVec 32))
  | [] => (s, .ok [])
  | x :: t => match demand s w .write x.1 with
    | (s1, .error f) => (s1, .error f.cause)
    | (s1, .ok k) =>
      if isDevice k then (s1, .error 3) else if isPoisoned s1 k then (s1, .error 8)
      else
        let r := rredPlaces s1 w t
        (r.1, r.2.map fun l => (k, x.2) :: l)

/-- The places that an RRED packet updates, or the cause of its rejection (R367, R370, R371). -/
def rredReach (s : State) (smod svf : Nat) (off : Word) (ty : Nat) (mask : BitVec 16) (data : List (BitVec 32)) :
    State × Except Nat (List (Nat × BitVec 32)) :=
  match admission s smod svf with
  | none => (s, .error 4)
  | some i => rredPlaces s (portWho s i) (rredElems off (tyBytes ty) mask data)

/-- The chunk of an RRED packet: its elements updated at their places (R370). -/
def rredChunk (s : State) (ty : Nat) (scale : BitVec 32) (l : List (Nat × BitVec 32)) : Chunk :=
  let n := tyBytes ty
  l.foldl (fun c x => portWrite (portRead c x.1 n) x.1 (leBytes n (rredValue ty scale (leNat (chunkByte s c) x.1 n) x.2))) portChunk

/-- An RRED packet is performed (R370, R371): one whose sender has no entry, or an element of which faults, is rejected whole. -/
def performRred (smod svf : Nat) (off : Word) (ty : Nat) (scale : BitVec 32) (mask : BitVec 16) (data : List (BitVec 32))
    (s : State) : State :=
  match rredReach s smod svf off ty mask data with
  | (_, .error c) => sendMsg (useFree s) (.ack smod svf c off)
  | (s1, .ok l) => sendMsg (commitPort s1 (portOf s smod) (rredChunk s1 ty scale l)) (.ack smod svf 0 off)

/-- The slices of an RRED packet, for the journal; 0 where it is rejected. -/
def rredSlices (s : State) (smod svf : Nat) (off : Word) (ty : Nat) (mask : BitVec 16) (data : List (BitVec 32)) : List Nat :=
  match (rredReach s smod svf off ty mask data).2 with
  | .error _ => [0]
  | .ok l =>
    let f := (l.map fun x => sliceOf (x.1 / 64))
    if f.isEmpty then [0] else (List.range 16).filter f.contains

/-- RRED_PACKET (R370, R371). -/
def execRredPacket (smod svf : Nat) (off : Word) (ty : Nat) (scale : BitVec 32) (mask : BitVec 16)
    (data : List (BitVec 32)) (s : State) : Host.Outcome State Fault Refusal :=
  .next (if s.stopped then s else
    arrival s (rredSlices s smod svf off ty mask data) (portOf s smod) 3
      (packed 3 smod svf ty mask.toNat :: off :: scale.setWidth 64 :: packHalves data)
      (performRred smod svf off ty scale mask data))

/-- A stalled instruction of the thread that moves completes with a result, and a new chunk starts (R369, R325). -/
def finishStall (s : State) (d : Reg) (v : Word) : State :=
  rebase (setPc (wr (modT s fun t => { t with stall := .none }) d v) (s.t.a.pc + 4))

/-- An instruction that was stalled as a chunk of its own completes with a result, and the chunk commits (R369, R270). -/
def finishOwn (s : State) (d : Reg) (v : Word) : State :=
  rebase (commitOpen (complete (wr (modT s fun t => { t with stall := .none }) d v)))

/-- The address of the remote load or atomic for which a thread is stalled. -/
def remoteFor (t : Thread) : Option Word :=
  match t.stall with
  | .remote _ _ da => some da
  | _ => none

/-- The response of a remote access reaches its thread (R369, R372). -/
def performResponse (tid cause : Nat) (value : Word) (s : State) : State :=
  onThread s tid fun s =>
    match s.t.stall with
    | .remote d n da =>
      if cause = 0 then finishOwn s d (extendTo n value.toNat false)
      else trapHere s cause da
    | _ => s

/-- REMOTE_RESPONSE (R369, R372): cause 0 where the access was performed, else the cause code of the trap. -/
def execRemoteResponse (tid cause : Nat) (value : Word) (s : State) : Host.Outcome State Fault Refusal :=
  .next (arriveAt s (coreOf tid) (.remoteResponse tid cause value) fun s =>
    arrival s [0] (portOf s (fld ((remoteFor (threadAt s tid)).getD 0) 50 11)) 1 [packed 4 tid cause 0 0, value]
      (performResponse tid cause value))

/-- Is an unacknowledged write one to an address? -/
def sentTo (addr : Word) (e : Word × Nat) : Bool := e.1 == addr

/-- A kind 8 or kind 9 record, to the VF that sent the write (R372): the write is reported once. -/
def remoteRecord (s : State) (kind cause tid : Nat) (addr : Word) : State :=
  let t := threadAt s tid
  let vf := ((t.sent.find? (sentTo addr)).map Prod.snd).getD t.vfid
  vfRecord (putThread s tid { t with sent := t.sent.eraseP (sentTo addr) }) vf
    (wd (kind * 2 ^ 56 + cause * 2 ^ 52 + tid)) addr

/-- The acknowledgement of a remote write reaches its thread (R371 to R373): one that reports a rejection counts too. -/
def performAck (tid cause : Nat) (addr : Word) (s : State) : State :=
  let s1 := if cause = 0 then s else remoteRecord s 8 (statusCause cause) tid addr
  let t := threadAt s1 tid
  putThread s1 tid { t with unacked := t.unacked - 1, sent := if cause = 0 then t.sent.eraseP (sentTo addr) else t.sent }

/-- REMOTE_ACKNOWLEDGEMENT (R371 to R373): of a write to a domain address. -/
def execRemoteAcknowledgement (tid cause : Nat) (addr : Word) (s : State) : Host.Outcome State Fault Refusal :=
  .next (arriveAt s (coreOf tid) (.remoteAcknowledgement tid cause addr) fun s =>
    arrival s [0] (portOf s (fld addr 50 11)) 1 [packed 5 tid cause 0 0, addr] (performAck tid cause addr))

/-- Is a message a request, or a write, of a thread to an address? -/
def Msg.packetOf (tid : Nat) (addr : Word) (write : Bool) (m : Msg) : Bool :=
  match m with
  | .request i da _ _ _ _ => !write && i == tid && da == addr
  | .rst i da _ _ => write && i == tid && da == addr
  | .rred i da _ _ _ _ => write && i == tid && da == addr
  | _ => false

/-- The oldest packet of a thread to this module itself at an address is lost, with what is due of it: a request's response too (R372). -/
def forgetOwn (s : State) (tid : Nat) (addr : Word) (write : Bool) : State :=
  let due (d : Due) : Bool := match d with
    | .own m _ => m.packetOf tid addr write
    | .event (.remoteResponse i _ _) => !write && i == tid
    | _ => false
  { s with outbound := s.outbound.eraseP (Msg.packetOf tid addr write), agenda := s.agenda.eraseP due }

/-- REMOTE_TIMEOUT (R372): a stalled RLD or RAMO traps as detected hardware fault, once its core's clock runs (R134); for a write a kind 9
record is sent. A write to the same address has left before the load that waits, so that it times out first. What times out gets no answer any
more; a write whose acknowledgement is missing stays unacknowledged (R373). -/
def execRemoteTimeout (tid : Nat) (addr : Word) (s : State) : Host.Outcome State Fault Refusal :=
  .next (arriveAt s (coreOf tid) (.remoteTimeout tid addr) fun s =>
    let asks := remoteFor (threadAt s tid) == some addr && !((threadAt s tid).sent.any (sentTo addr))
    let s1 := if fld addr 50 11 = moduleNo then forgetOwn s tid addr (!asks) else s
    if asks then onThread s1 tid fun s => trapHere s 15 addr else remoteRecord s1 9 0 tid addr)

/-- An item of another module is performed (R325, R375): it fills a reserved place of its sender; one whose sender is no longer registered is
discarded. A queue of KIND 0 takes it as another does: R325 refuses local sends alone there (DESIGN CHOICE, log entry 111). The answer
goes back for a QSEND.A. -/
def performItem (smod svf queue : Nat) (lo hi : Word) (s : State) : State :=
  match senderEntry s queue smod svf false with
  | none => sendMsg s (.accepted smod svf false)
  | some i => sendMsg (pushItem s queue { lo := lo, hi := hi, place := some i }) (.accepted smod svf true)

/-- REMOTE_ITEM (R325, R375). -/
def execRemoteItem (smod svf queue : Nat) (lo hi : Word) (s : State) : Host.Outcome State Fault Refusal :=
  .next (arrival s [0] (portOf s smod) 2 [packed 6 smod svf 0 queue, lo, hi] (performItem smod svf queue lo hi))

/-- The answer to a QSEND.A completes it: a response that is recorded (R325, R422). -/
def finishAnswer (s : State) (d : Reg) (st : Word) : State :=
  let r := answered s fun s => ([st], s)
  finishStall r.2 d (r.1.getD 0 0)

/-- A returned or reclaimed place (R325, R375). -/
def performReturn (queue : Nat) (reclaimed : Bool) (s : State) : State :=
  { s with credits := if reclaimed then spDel s.credits queue
           else spPut s.credits queue (spGet 0 s.credits queue + 1) }

/-- RESERVATION_RETURN (R325, R375): the queue is named as VFID × 2^21 + designator, as the returned place belongs to a VF. A
place comes back, or the registration is gone; a stalled QSEND is tried again. -/
def execReservationReturn (queue : Nat) (reclaimed : Bool) (s : State) : Host.Outcome State Fault Refusal :=
  .next (arrival s [0] (portOf s (queue / 1024 % 2048)) 1 [packed 8 0 (b2n reclaimed) 0 0, wd queue] (performReturn queue reclaimed))

/-- The doubleword at an offset of a collective entry (R382). -/
def collDw (s : State) (i o : Nat) : Word := devGet s (0x40000C50000 + 256 * i + o)

/-- Is module m a peer of a collective (R382)? -/
def isPeer (s : State) (i m : Nat) : Bool := bitAt (collDw s i (0x20 + 8 * (m / 64))).toNat (m % 64)

/-- The IOD frees a collective entry (R374, R382). -/
def freeColl (s : State) (i : Nat) : State :=
  devPut s (0x40000C50000 + 256 * i) (wd ((collDw s i 0).toNat % 9223372036854775808))

/-- The collective entry that an abort notice of a module names (R374). Of several it is the lowest (DESIGN CHOICE, log entry 148). -/
def abortEntry (s : State) (smod ident : Nat) : Option Nat :=
  (List.range 256).find? fun i => fld (collDw s i 0) 63 1 == 1 && fld (collDw s i 0) 0 32 == ident && isPeer s i smod

/-- The place of a collective's abort word (R374, R382). -/
def abortWord (s : State) (i : Nat) : Nat := fld (collDw s i 0x10) 3 47 * 8

/-- An abort notice is performed (R374). -/
def performAbort (smod ident : Nat) (s : State) : State :=
  match abortEntry s smod ident with
  | none => s
  | some i =>
    let k := abortWord s i
    let s1 := commitPort s (portOf s smod) (portWrite (portRead portChunk k 8) k
      (leBytes 8 (wd (leNat (memByte s) k 8) ||| 0x8000000000000000).toNat))
    freeColl (sendRecord s1 (wd (2 ^ 63 + fld (collDw s i 8) 0 10)) (wd (10 * 2 ^ 56 + smod)) (wd ident)) i

/-- ABORT_NOTICE (R374): its chunk takes the slice of the abort word (R421). -/
def execAbortNotice (smod ident : Nat) (s : State) : Host.Outcome State Fault Refusal :=
  .next (arrival s [((abortEntry s smod ident).map fun i => sliceOf (abortWord s i / 64)).getD 0] (portOf s smod) 4
    [packed 9 smod 0 0 0, wd ident] (performAbort smod ident))

/-- Remove a reservation entry; the items that fill its places stay (R375). -/
def dropEntry (s : State) (i : Nat) : State :=
  { devPut s (paSender i 0) 0 with
    items := s.items.map fun e => (e.1, e.2.map fun it => if it.place = some i then { it with place := none } else it) }

/-- The reservation entries that satisfy a test, by number. -/
def entriesWith (s : State) (f : Word → Bool) : List Nat :=
  s.dev.filterMap fun e =>
    let o := e.1 - 0x40000C10000
    if 0x40000C10000 ≤ e.1 ∧ e.1 < 0x40000C20000 ∧ o % 16 = 0 ∧ fld e.2 63 1 = 1 ∧ f e.2 = true then some (o / 16) else none

/-- A reset notice is performed (R375 item 2): the reservations that a VF of another module holds here are released. -/
def performNotice (smod svf : Nat) (s : State) : State :=
  (entriesWith s fun v => fld v 62 1 == 0 && fld v 32 6 == svf && fld v 16 11 == smod).foldl dropEntry s

/-- RESET_NOTICE (R375 item 2). -/
def execResetNotice (smod svf : Nat) (s : State) : Host.Outcome State Fault Refusal :=
  .next (arrival s [0] (portOf s smod) 4 [packed 10 smod svf 0 0] (performNotice smod svf))

/-- A host write is performed (R377): a one-line chunk of the host-port agent. -/
def performHost (pa : Nat) (b : List Byte) (s : State) : State := commitPort s hostPort (portWrite portChunk pa b)

/-- HOST_WRITE (R377). -/
def execHostWrite (vf pa : Nat) (data : List Byte) (s : State) : Host.Outcome State Fault Refusal :=
  let b := data.take (64 - pa % 64)
  .next (if s.stopped || !isHostMem pa || b.isEmpty then s else
    arrival s [sliceOf (pa / 64)] hostPort 5 (packed 11 0 vf b.length 0 :: wd pa :: packBytes b) (performHost pa b))

/-- Is a frame one that belongs to the hypervisor, OWNER 64 (R353, R377)? -/
def hypervisorFrame (s : State) (k : Nat) : Bool :=
  match fotIndex k with
  | none => false
  | some i => fotEntry s (fld s.t.fotbase 16 34 * 65536) i / 65536 % 128 == 64

/-- A CXL.mem access is performed (R377): a write of bytes, or a read of n. -/
def performCxl (write : Bool) (pa : Nat) (b : List Byte) (n : Nat) (s : State) : State :=
  if write then commitPort s hostPort (portWrite portChunk pa b)
  else sendMsg (commitPort s hostPort (portRead portChunk pa n)) (.hostRead pa ((List.range n).map fun i => memByte s (pa + i)))

/-- CXL_MEM_ACCESS (R377): a chunk of the host-port agent on a frame of OWNER 64; the host sees plaintext. -/
def execCxlMemAccess (write : Bool) (pa : Nat) (data : List Byte) (s : State) : Host.Outcome State Fault Refusal :=
  let b := data.take (64 - pa % 64)
  .next (if s.stopped || !isDram pa || !hypervisorFrame s pa || b.isEmpty then s else
    arrival s [sliceOf (pa / 64)] hostPort 5
      (packed 12 0 (b2n write) b.length 0 :: wd pa :: if write then packBytes b else []) (performCxl write pa b b.length))

end Sys2Proof.Machine
end

