-- ==== Sys2Proof/Machine/System.lean ====
section
/-! DEFINITION. Machine/System.lean: the SYSTEM major (R357 to R361, R395 to R400, R418): calls, IRET, CTXSAVE, CTXLOAD, HALT,
TLBINV, FRAMEGIVE, KEYLOAD and TMARK. -/

namespace Sys2Proof.Machine

open Sys2Proof

/-- ECALL (R396): cause 11, its own address. -/
def execEcall (s : State) : Host.Outcome State Fault Refusal := .next (trapNext (commitOpen s) 11 (wd s.t.a.pc))
/-- HCALL (R396): cause 12. -/
def execHcall (s : State) : Host.Outcome State Fault Refusal := .next (trapNext (commitOpen s) 12 (wd s.t.a.pc))
/-- TRAP (R396): cause 13, X[A]. -/
def execTrap (a : Reg) (s : State) : Host.Outcome State Fault Refusal := .next (trapNext (commitOpen s) 13 (rd s a))
/-- BRK (R396): cause 9. -/
def execBrk (s : State) : Host.Outcome State Fault Refusal := .next (trapNext (commitOpen s) 9 (wd s.t.a.pc))

/-- IRET (R397). -/
def execIret (s : State) : Host.Outcome State Fault Refusal :=
  .next (atLevel s .s (encode .iret) fun s => returnFrom (commitOpen s))

/-- Bytes of a context image (R392). -/
def imageSize (s : State) : Nat := if isSteward s.cur then 4096 else 0x5E000

/-- PC and LEVEL of a save (R398). -/
def savedPc (s : State) : Nat × Level :=
  if s.t.lvl = .h then (s.t.htrappc.toNat, levelOf (s.t.hstatus.toNat % 4))
  else (s.t.trappc.toNat, levelOf (s.t.tstatus.toNat % 4))

/-- CTXSAVE (R398). -/
def execCtxsave (s : State) : Host.Outcome State Fault Refusal :=
  .next (atLevel s .s (encode .ctxsave) fun s => settled s fun s =>
    let s1 := drainEngines (drainMatrix (settleSealed (commitOpen s)))
    if overlapped s1 s1.t.ctxbase (imageSize s1) ≠ [] then illegal s1 (encode .ctxsave)
    else
      let p := savedPc s1
      match storeSegs (keepSave s1) s1.t.ctxbase (imageSegs s1 (nextSave s1) p.1 p.2 false) with
      | (s2, .error f) => fltTrap s2 f
      | (s2, .ok _) => rebase (modA (commitOpen (complete s2)) cleanAll))

/-- The conditions of CTXLOAD on an image that has been read (R399). -/
def loadable (s : State) (d : ImageData) : Bool :=
  let h := d.head
  let vf := imageVf h
  let self := dfld h 0xA 1
  let st := isSteward s.cur
  let sib := threadAt s (siblingOf s.cur)
  (if st then self == 2 else decide (self ≤ 1)) &&
  (s.t.lvl == .h || (vf == s.t.vfid && decide (dfld h 8 1 ≤ 1))) &&
  (st || sib.run == .halted || sib.vfid == vf) &&
  (st || imageRows h == 0 || (self == s.cur % 2 && decide (imageRows h ≤ newHolding s))) &&
  checkOk d st ((findSave s.saves (imageIs d st)).2.slots.map Prod.fst)

/-- CTXLOAD's effects (R399): TRAPPC and PPL, or those of H, come from PC and LEVEL; CTXBASE is the image's address, or at H what an S block
holds. -/
def loadContext (s : State) (va : Word) (d : ImageData) : State :=
  let lvl := s.t.lvl
  let s1 := installImage s d ((s.t.a.pc + 4) % 18446744073709551616) (lvl == .h) true
  let pc := pcBits (dfld d.head 0 8)
  let ppl := dfld d.head 8 1 % 4
  let f (st : BitVec 8) : BitVec 8 := BitVec.ofNat 8 (st.toNat / 4 * 4 + ppl)
  let base := if lvl = .h ∧ bitAt (dfld d.head 0xB 1) 2 = true then bitsOf52 12 (hdw d.head (0x4E8 + 56)) else va
  rebase (modT s1 fun t =>
    if lvl = .h then { t with ctxbase := base, htrappc := pc, hstatus := if ppl = 3 then t.hstatus else f t.hstatus }
    else { t with ctxbase := va, trappc := pc, tstatus := f t.tstatus })

/-- CTXLOAD (R399). -/
def execCtxload (a : Reg) (s : State) : Host.Outcome State Fault Refusal :=
  .next (atLevel s .s (encode (.ctxload a)) fun s => settled s fun s =>
    let va := rd s a
    aligned (commitOpen s) va 4096 fun s1 =>
      match readImage s1 va with
      | (s2, .error f) => fltTrap s2 f
      | (s2, .ok d) =>
        let s3 := drainEngines (drainMatrix (settleSealed (commitOpen (countOne s2))))
        if loadable s3 d then loadContext s3 va d else illegal s3 (encode (.ctxload a)))

/-- HALT (R400): with X[A] not zero it first writes a dump of CAUSE 0. -/
def execHalt (a : Reg) (s : State) : Host.Outcome State Fault Refusal :=
  .next (settled s fun s =>
    let s1 := settleSealed (commitOpen s)
    rebase (haltThread (if rd s1 a = 0 then s1 else writeDump s1 (plainTrap 0 0) s1.t.a.pc false (rd s1 a))))

/-- Do n bytes at one place and m at another meet? -/
def rangesMeet (a n b m : Nat) : Bool := decide (a < b + m) && decide (b < a + n)

/-- Does a chunk hold an item within a byte range (R159, R359, R360)? -/
def chunkIn (c : Chunk) (wrtOnly : Bool) (k n : Nat) : Bool :=
  (c.writeL.any fun l => rangesMeet (64 * l) 64 k n) || (c.writeG.any fun g => rangesMeet (4096 * g) 4096 k n) ||
  (!wrtOnly && ((c.readL.any fun l => rangesMeet (64 * l) 64 k n) || c.readG.any fun g => rangesMeet (4096 * g) 4096 k n))

/-- Physical pages of TLB entries: first byte and size. -/
def leafRange (e : TlbEntry) : Nat × Nat := (e.leaf.toNat / 4096 % 274877906944 * 4096, e.size)

/-- Does a test find the last chunk of a completed pass, or what it is to run again with (R159)? -/
def Redo.hit (r : Redo) (f : Chunk → Bool) : Bool := f (r.chunk.getD { Chunk.empty 0 0 with used := r.kept })

/-- The uncommitted chunks of the passes and of the engine operations of the thread that moves commit where a test finds them (R159). -/
def settleAgents (s : State) (hit : Chunk → Bool) : State :=
  let s1 := if s.t.redo.any fun r => r.hit hit then settleSealed s else s
  let s2 := match s1.t.pass, s1.t.sealed with
    | some p, some c => if hit c then closePass s1 p else s1
    | _, _ => s1
  s2.engines.foldl (fun s e => match e.chunk with
    | none => s
    | some c => if e.tid = s.cur ∧ hit c = true then commitEngine s e c else s) s2

/-- Does a test find an uncommitted chunk of the passes or of the engine operations of the thread that moves? -/
def agentsHit (s : State) (hit : Chunk → Bool) : Bool :=
  (s.t.redo.any fun r => r.hit hit) || s.t.sealed.any hit || s.engines.any fun e => e.tid == s.cur && e.chunk.any hit

/-- Does it find one of its own? -/
def ownHits (t : Thread) (hit : Chunk → Bool) : Bool := hit t.chunk || t.closed.any hit

/-- Where work of a core is frozen (R134), what waits for its chunks waits with it: the step that would does not take place. -/
def unlessFrozen (s : State) (f : State → State) : State :=
  if s.c.relock.isSome || s.c.off then { s with outOfTurn := true } else f s

/-- The uncommitted chunks of a thread, of its passes and of its engine operations commit where a test finds them (R159, R249, R360; log entry
98). -/
def settleThread (hit : Chunk → Bool) (s : State) (tid : Nat) : State :=
  onThread s tid fun s =>
    if !(ownHits s.t hit || agentsHit s hit) then s
    else unlessFrozen s fun s =>
      settleAgents (if hit s.t.chunk then commitOpen s else if s.t.closed.any hit then commitClosed s else s) hit

/-- Does TLBINV name the page of an entry (R360): its VFID and ASID, and a page of a size? -/
def pageNamed (vf : Nat) (va b : Word) (evf : Nat) (asid : BitVec 16) (page size : Nat) : Bool :=
  evf == vf && (va == 0xFFFFFFFFFFFFFFFF || page * 65536 / size == va.toNat / size) && (decide (fld b 63 1 = 1) || asid == b.setWidth 16)

/-- Does TLBINV name a TLB entry (R360)? -/
def tlbNamed (vf : Nat) (va b : Word) (e : TlbEntry) : Bool := pageNamed vf va b e.vf e.asid e.page e.size

/-- Has a chunk translated through an entry that TLBINV names (R360)? -/
def usesNamed (vf : Nat) (va b : Word) (c : Chunk) : Bool := c.used.any fun u => pageNamed vf va b u.vf u.asid u.page u.size

/-- TLBINV (R360); a guest's goes to H (R348). -/
def execTlbinv (a b : Reg) (s : State) : Host.Outcome State Fault Refusal :=
  let w := encode (.tlbinv a b)
  .next (atLevel s .s w fun s =>
    if s.t.lvl = .s ∧ fld s.t.hptbase 63 1 = 1 then trapHere s 12 (wd w)
    else if fld (rd s b) 16 47 ≠ 0 then illegal s w
    else closeBefore s fun s =>
      let s1 := (liveTids s).foldl (settleThread (usesNamed s.t.vfid (rd s a) (rd s b))) s
      { s1 with tlb := s1.tlb.filter fun e => !tlbNamed s.t.vfid (rd s a) (rd s b) e })

/-- First byte and size of the frame with an FOT index (R354). -/
def framePlace (i : Nat) : Nat × Nat :=
  if i < 6291456 then (i * 65536, 65536)
  else if i < 56623104 then (1099511627776 + (i - 6291456) * 65536, 65536)
  else if i < 56623424 then (loomKey ((i - 56623104) / 16) ((i - 56623104) % 16 * 262144), 262144)
  else (sramKey ((i - 56623424) / 256) ((i - 56623424) % 256 * 65536), 65536)

/-- Has a chunk accessed a frame, or translated an address to it (R359)? -/
def usesFrame (k n : Nat) (c : Chunk) : Bool := chunkIn c false k n || c.used.any fun u => rangesMeet (65536 * u.place) 65536 k n

/-- A thread's chunks that hold a line of a frame are squashed, or commit where they hold their grants; chunks of its passes and of its engine
operations that have used it commit (R359). -/
def squashFrame (k n : Nat) (s : State) (tid : Nat) : State :=
  onThread s tid fun s =>
    let held (c : Chunk) : Bool := chunkIn c true k n
    if !(ownHits s.t held || agentsHit s (usesFrame k n)) then s
    else unlessFrozen s fun s =>
      let s1 := if !ownHits s.t held then s else if s.t.reserving then commitOpen s else squash s (s.t.closed.any held) false
      settleAgents s1 (usesFrame k n)

/-- Every byte of a frame becomes zero under the key slot of its new entry (R359). -/
def scrubFrame (s : State) (k n : Nat) (e : Word) : State :=
  let s1 := scrub s k n
  let g := spGet 0 s1.keyGen (fld e 0 13)
  if g = 0 ∨ isDram k = false then s1
  else { s1 with lineGen := (List.range (n / 64)).foldl (fun l i => spPut l (k / 64 + i) g) s1.lineGen }

/-- Place of the FOT entry of a frame (R354). -/
def fotPlace (s : State) (i : Nat) : Nat := fld s.t.fotbase 16 34 * 65536 + 8 * i

/-- FRAMEGIVE takes a frame (R359): TRANSIT is set, its translations are dropped, its chunks are squashed or waited for. -/
def takeFrame (s : State) (i : Nat) : State :=
  let p := framePlace i
  let old := fotEntry s (fld s.t.fotbase 16 34 * 65536) i
  let s0 := pokeAll s (keyed (fotPlace s i) (leBytes 8 (old + 2147483648)))
  let s1 := (liveTids s0).foldl (squashFrame p.1 p.2) s0
  { s1 with tlb := s1.tlb.filter fun x => !(rangesMeet (leafRange x).1 (leafRange x).2 p.1 p.2) }

/-- FRAMEGIVE gives a frame that it has taken (R359): it is scrubbed and has its new entry. -/
def giveFrame (s : State) (i : Nat) (e : Word) : State :=
  let p := framePlace i
  let keepWord (x : Nat × Word) : Bool := !(rangesMeet (8 * x.1) 8 p.1 p.2)
  let s1 := { s with c := { s.c with icache := s.c.icache.filter keepWord },
                     cores := s.cores.map fun x => (x.1, { x.2 with icache := x.2.icache.filter keepWord }) }
  let s2 := scrubFrame s1 p.1 p.2 e
  pokeAll s2 (keyed (fotPlace s2 i) (leBytes 8 e.toNat))

/-- FRAMEGIVE (R359). Between setting TRANSIT and writing the new entry other agents may run: the thread stalls there. -/
def execFramegive (d a b : Reg) (s : State) : Host.Outcome State Fault Refusal :=
  .next (atLevel s .h (encode (.framegive d a b)) fun s =>
    let i := (rd s a).toNat
    let e := rd s b
    if 56624448 ≤ i ∨ fld e 31 33 ≠ 0 ∨ fld e 23 7 ≠ 0 ∨ fld e 13 3 ≠ 0 then closeBefore s fun s => wr s d 1
    else
      let s1 := commitOpen s
      if bitAt (fotEntry s1 (fld s1.t.fotbase 16 34 * 65536) i) 31 then rebase (complete (wr s1 d 2))
      else modT (takeFrame s1 i) fun t => { t with stall := .frame i e d })

/-- The FRAMEGIVE of the thread that moves ends (R359). -/
def endFrame (s : State) : State :=
  match s.t.stall with
  | .frame i e d => rebase (complete (wr (giveFrame (modT s fun t => { t with stall := .none }) i e) d 0))
  | _ => s

/-- A key slot takes a key (R358): data under another key then decrypts to unpredictable values. -/
def loadKey (s : State) (slot : Nat) (key : List Byte) : State :=
  if spGet [] s.keys slot = key then s
  else { s with keys := spPut s.keys slot key, keyGen := spPut s.keyGen slot (spGet 0 s.keyGen slot + 1) }

/-- KEYLOAD (R358). Its record is read, with its faults, before the slot is judged (DESIGN CHOICE, log entry 116). -/
def execKeyload (d a b : Reg) (s : State) : Host.Outcome State Fault Refusal :=
  .next (atLevel s .h (encode (.keyload d a b)) fun s => settled s fun s =>
    aligned (commitOpen s) (rd s b) 64 fun s =>
      match loadNat s (rd s b) 64 with
      | (s1, .error f) => fltTrap s1 f
      | (s1, .ok v) => rebase (commitOpen (complete (
          if 8192 ≤ (rd s1 a).toNat then wr s1 d 1 else wr (loadKey s1 (rd s1 a).toNat (leBytes 64 v)) d 0))))

/-- TMARK (R418): one MARK record, except at H. -/
def execTmark (a b : Reg) (s : State) : Host.Outcome State Fault Refusal :=
  .next (settled s fun s => rebase (commitOpen (closeBefore s fun s => traceRec s 7 false s.t.a.pc (rd s a) (rd s b))))

end Sys2Proof.Machine
end

