-- ==== Sys2Proof/Machine/Governor.lean ====
section
/-! DEFINITION. Machine/Governor.lean: module faults (R405, R406), the events of a replay (R423 to R425), and the governor: power gating
(R99), frequency steps (R130 to R136) and the monitors (R429 to R432). -/

namespace Sys2Proof.Machine

open Sys2Proof

/-- Do PC and registers of the thread that moves match an EVENT record (R424)? -/
def eventMatches (s : State) (r : JRec) : Bool :=
  r.dw.getD 4 0 == wd s.t.a.pc && r.dw.getD 5 0 == (Config.crc32 (s.t.a.x.toList.drop 1)).setWidth 64

/-- May an EVENT of a type take place now (R423)? During a replay only the one that is due. -/
def injectable (s : State) (ty : Nat) : Bool := !(replaying s) || ((eventDue s).map fun r => r.eventType == ty).getD false

/-- An EVENT of the thread that moves takes place: live, or in a replay with its record used, where PC and registers match it (R422 to
R424). -/
def injected (s : State) (ty : Nat) (f : State → State) : State :=
  if !(replaying s) then f (settleSealed s)
  else match eventDue s with
    | none => s
    | some r =>
      if r.eventType ≠ ty then s
      else if eventMatches s r then f (settleSealed (consume s r))
      else diverge s 2 s.cur s.t.chunk.before r.off

/-- A fatal trap of every thread (R406): a pass stops first (R218). -/
def faultThread (s : State) (tid : Nat) : State :=
  onThread s tid fun s =>
    if s.t.run = .halted then s
    else
      let s1 := stopPass (settleSealed s) none
      takeTrap s1 (plainTrap 15 0) s1.t.a.pc false false s.t.pass.isSome

/-- A module fault (R406): every thread takes a fatal cause 15 trap with its dump, the failing unit is reported, and the slices
grant no more. -/
def moduleFault (s : State) (cls inst : Nat) : State :=
  { devPut ((liveTids s).foldl faultThread s) (paModule 0x18) (wd (2 ^ 63 + cls % 256 * 256 + inst % 256)) with stopped := true }

/-- WATCHDOG_EXPIRY (R405, R406). -/
def execWatchdogExpiry (cls inst : Nat) (s : State) : Host.Outcome State Fault Refusal := .next (moduleFault s cls inst)

/-- CAP of a core (R130). -/
def capOf (tmax degr : Nat) : Nat := Nat.max 1200 (tmax - 25 * (degr / 16))

/-- Does a chunk of a core's agents hold grants of slices (R134, R287)? -/
def holdsGrants (s : State) (core : Nat) : Bool := s.held.any fun h => core == agentCore h.2

/-- The frequency that a core comes to with the step that is in progress or waits. -/
def targetOf (s : State) (core : Nat) : Nat :=
  let c := coreAt s core
  match c.stepHeld, c.relock with
  | some f, _ => f.1
  | none, some r => r.1
  | none, none => c.fcur

/-- Must a step of a core wait (R99, R134): gated, in a relock, its clock stopped, or a chunk of it holding grants? -/
def stepWaits (s : State) (core : Nat) : Bool :=
  let c := coreAt s core
  c.gated || c.relock.isSome || c.off || holdsGrants s core

/-- A step that has waited begins once nothing is in its way any more (R134). -/
def heldStep (s : State) (core : Nat) : State :=
  match (coreAt s core).stepHeld with
  | none => s
  | some f => if stepWaits s core then s else startStep s core f.1 f.2

/-- A step of a compute core to a frequency begins, or waits for its core (R99, R134); of two that wait the lower is made, and one to where a waiting
one leads begins that, where it can. The clock of a core at rest takes up its die's time first, at which the core may have gated. -/
def beginStep (s0 : State) (core mhz limit : Nat) : State :=
  let s := if core < 160 then wakeClock s0 core else s0
  if 160 ≤ core ∨ mhz < 1000 ∨ mhz % 25 ≠ 0 then s
  else if mhz = targetOf s core then heldStep s core
  else if stepWaits s core then
    let c := coreAt s core
    putCore s core { c with stepHeld := match c.stepHeld with
      | none => some (mhz, limit)
      | some f => if mhz < f.1 then some (mhz, limit) else some f }
  else startStep s core mhz limit

/-- A step that the governor makes: during replay it makes none of its own (R423, R431). -/
def governorStep (s : State) (core mhz limit : Nat) : State := if replaying s then s else beginStep s core mhz limit

/-- The frequency step that a record places at the present boundary of a core's CT0 is made (R423). -/
def recordedStep (s : State) (core : Nat) : State :=
  if 160 ≤ core ∨ replaying s = false then s
  else
    let s0 := switchTo s (2 * core)
    match eventDue s0 with
    | none => s
    | some r =>
      if r.eventType ≠ 5 ∨ stepWaits s core = true then s
      else startStep (consume s r) core (r.dw.getD 3 0).toNat 0

/-- FREQUENCY_STEP (R130, R134): to a frequency that the limits allow. One down to CAP or to FLIM is limited by it; any other one down
leaves LIMIT (log entry 99). -/
def execFrequencyStep (core mhz : Nat) (s : State) : Host.Outcome State Fault Refusal :=
  .next (if ceilingOf s core < mhz then s
    else if targetOf s core < mhz ∧ mayRaise s core = false then s
    else governorStep s core mhz (if mhz = (coreAt s core).cap then 5 else if mhz = flimOf s core then 6 else 0))

/-- The accumulated signature reaches a core's threads as one broadcast (R136). -/
def applySigs (s : State) (core : Nat) : State :=
  let c := coreAt s core
  let s1 := putCore s core { c with sigL := [], sigG := [], sigLong := false }
  [2 * core, 2 * core + 1].foldl (broadcastTo 16777215 c.sigLong c.sigL c.sigG) s1

/-- The inbound FIFO delivers its messages in arrival order, in the core's first cycle (R135). -/
def deliverInbound (s : State) (core : Nat) : State :=
  let c := coreAt s core
  { putCore s core { c with inbound := [] } with
    agenda := c.inbound.map (Due.act s.cur) ++ s.agenda }

/-- The relock of a core ends (R134 to R136): its die's timer has come to tick t0 + 200, NOM has risen by 2,000, FCUR and INC are new;
signatures, then messages are applied. Where CAP or FLIM has fallen below FCUR, a step down waits to begin (R429, R430). -/
def endRelock (s : State) (core : Nat) : State :=
  let c := coreAt s core
  match c.relock with
  | none => s
  | some (f, t0) =>
    let t := (t0.toNat + 200) * 42949672960
    let held := if c.stepHeld.isNone ∧ ceilingOf s core < f ∧ replaying s = false then some (ceilingOf s core, ceilingLimit s core)
      else c.stepHeld
    let s1 := putCore s core { c with relock := none, fcur := f, nom := c.nom + 2000, clock := t, stepHeld := held }
    deliverInbound (applySigs (raiseTime s1 (dieOf core) t) core) core

/-- RELOCK_END (R134, R135). -/
def execRelockEnd (core : Nat) (s : State) : Host.Outcome State Fault Refusal := .next (endRelock s core)

/-- POWER_GATING (R99): the core's remaining cycles to the gating cycle pass, where its conditions hold. -/
def execPowerGating (core : Nat) (s : State) : Host.Outcome State Fault Refusal :=
  .next (if 160 ≤ core then s else onThread s (2 * core) fun s =>
    if s.c.gated || s.c.relock.isSome || s.c.off || !restful s then s else cyclesPass s (4096 - s.c.idleFor))

/-- GATING_EXIT (R99). -/
def execGatingExit (core : Nat) (s : State) : Host.Outcome State Fault Refusal := .next (ungate s core)

/-- A core's clock is stopped or runs again (R429, R431): what has come for it meanwhile is delivered. -/
def setClock (s : State) (core : Nat) (stop : Bool) : State :=
  let c := coreAt s core
  if stop then putCore s core { c with off := true }
  else if c.off then deliverInbound (putCore s core { c with off := false, clock := Nat.max c.clock (dieTime s (dieOf core)) }) core
  else s

/-- Is a core beyond the limits that stop its clock, where these do (R429, R431)? -/
def beyondLimits (s : State) (core : Nat) : Bool :=
  decide (tcritOf s < (coreAt s core).temp) || railLow s (Config.railOf core)

/-- Do TCRIT and VMIN stop a core's clock instead of changing its frequency (R429, R431)? -/
def stopsClock (s : State) (core : Nat) : Bool := decide (160 ≤ core) || replaying s

/-- TEMPERATURE_READING (R429, R432): above TCRIT the core steps to 1,000 MHz at once; above TWARN it falls by 25 MHz, and once 5 °C
below it rises again by 25 MHz, where the governor's interval is over. A steward's clock stops instead, and in a replay any core's. -/
def execTemperatureReading (core degC : Nat) (s : State) : Host.Outcome State Fault Refusal :=
  let c := coreAt s core
  let s1 := putCore s core { c with temp := degC % 256,
                                    warm := decide (twarnOf s < degC) || (c.warm && decide (twarnOf s < degC + 5)) }
  let due := Config.governorDue s.free
  let f := targetOf s1 core
  .next (useFree (
    if stopsClock s1 core then setClock s1 core (beyondLimits s1 core)
    else if tcritOf s1 < degC then governorStep s1 core 1000 2
    else if twarnOf s1 < degC then (if due then governorStep s1 core (f - 25) 1 else s1)
    else if mayRaise s1 core ∧ due = true ∧ f + 25 ≤ ceilingOf s1 core then governorStep s1 core (f + 25) 0
    else s1))

/-- The compute core with the highest FCUR, ties to the lowest COREID (R429). -/
def fastest (s : State) : Nat :=
  (List.range 160).foldl (fun b i => if (coreAt s b).fcur < (coreAt s i).fcur then i else b) 0

/-- POWER_MEASUREMENT (R429). -/
def execPowerMeasurement (watts : Nat) (s : State) : Host.Outcome State Fault Refusal :=
  let b := fastest s
  let s1 := { s with power := watts }
  .next (if plimOf s < watts then governorStep s1 b (targetOf s1 b - 25) 4 else s1)

/-- A reading of a rail's monitor (R429, R431): below VMIN every compute core of the rail falls by 25 MHz where the governor's interval is
over, and a steward's clock stops; in a replay every core's does. -/
def railReading (s : State) (r mv : Nat) : State :=
  let s1 := useFree { s with rails := spPut s.rails r mv }
  let due := Config.governorDue s.free
  ((List.range 176).filter fun core => Config.railOf core == r).foldl (fun s core =>
    if stopsClock s core then setClock s core (beyondLimits s core)
    else if railLow s r && due then governorStep s core (targetOf s core - 25) 3 else s) s1

/-- TCRIT_TIMEOUT (R429): a module fault of the power controller, if the core still reads above TCRIT + 5 °C. -/
def execTcritTimeout (core : Nat) (s : State) : Host.Outcome State Fault Refusal :=
  .next (if tcritOf s + 5 < (coreAt s core).temp then moduleFault s 8 0 else s)

/-- Does a rail read 5 % below its VMIN (R429)? -/
def railCritical (s : State) (r : Nat) : Bool :=
  ((s.rails.find? fun e => e.1 == r).map Prod.snd).any fun mv =>
    decide (100 * mv ≤ 95 * fld (devGet s (paModule (0x1018 + 8 * r))) 0 16) && railLow s r

/-- VMIN_TIMEOUT (R429): a module fault of the power controller, if the rail still reads 5 % below its VMIN. -/
def execVminTimeout (rail : Nat) (s : State) : Host.Outcome State Fault Refusal :=
  .next (if railCritical s rail then moduleFault s 8 0 else s)

/-- PROCESS_MONITOR (R430): DEGR never falls, and a new value reaches flash; a core above its new CAP is stepped down as soon as a step can begin. -/
def execProcessMonitor (core degr : Nat) (s : State) : Host.Outcome State Fault Refusal :=
  let c := coreAt s core
  let d := Nat.min 255 (Nat.max c.degr degr)
  .next (if 160 ≤ core then s else
    let s1 := putCore s core { c with degr := d, cap := capOf c.tmax d, flashOk := c.flashOk || d != c.degr }
    if targetOf s1 core ≤ ceilingOf s1 core then s1 else governorStep s1 core (ceilingOf s1 core) (ceilingLimit s1 core))

end Sys2Proof.Machine
end

