-- ==== Sys2Proof/Machine/Registers.lean ====
section
/-! DEFINITION. Machine/Registers.lean: committed writes of device registers (R378 to R382, R409, R419), the reset of a virtual
function (R375), requests for pre-emption (R389), and the CSR accesses that wait for passes (R83, R152, R219, R407). -/

namespace Sys2Proof.Machine

open Sys2Proof

/-- A message leaves the module at once. -/
def sendOut (s : State) (m : Msg) : State := { s with outbound := s.outbound ++ [m] }

/-- A thread of a VF that is reset stops (R375 item 1): its chunks and passes are discarded, its engine operations end, it leaves
its groups, abandons its grants and enters HALTED with no dump. -/
def resetThread (s : State) (tid : Nat) : State :=
  onThread s tid fun s =>
    let s1 := squashPass (dropSealed (squash s true false) false) false
    haltThread { modT s1 fun t => { t with sealed := none, redo := none, passCkpt := none, pass := none,
                                           passEffort := Effort.zero } with
      engines := s1.engines.filter fun e => e.tid != s.cur,
      held := s1.held.filter fun h => h.2 != passAgent s.cur && !(s1.engines.any fun e => e.tid == s.cur && engineAgent e.tid e.k == h.2) }

/-- A kind 3 record for what a reset discards from a queue (R332, R375): dropped where the same reset clears the ERRQ. -/
def cancelRecord (s : State) (vf q tid : Nat) : State :=
  let e := devGet s (paQueue q 1)
  if fld e 63 1 = 1 ∧ qOwner s (fld e 0 10) = vf then devBump s (paModule 0x10)
  else queueRecord s q (wd (3 * 2 ^ 56 + tid)) (wd (designator q))

/-- A queue of a VF that is reset is emptied, and other senders' reservations on it are reclaimed (R375 item 3). -/
def resetQueue (vf : Nat) (s : State) (q : Nat) : State :=
  let ps := s.panels.filter fun p => p.queue == q
  let its := qItems s q
  let s1 := { s with panels := s.panels.filter fun p => p.queue != q, items := spDel s.items q }
  let s2 := its.foldl (fun s _ => cancelRecord s vf q 0) (ps.foldl (fun s p => cancelRecord s vf q p.tid) s1)
  (entriesWith s2 fun v => fld v 0 10 == q).foldl (fun s i => sendOut (dropEntry s i) (.placeBack i true)) s2

/-- A collective of a VF that is reset is aborted at every peer, and its entry freed (R375 item 5). -/
def resetColl (s : State) (i : Nat) : State :=
  freeColl (((List.range 1152).filter (isPeer s i)).foldl (fun s m => sendOut s (.abort m (fld (collDw s i 0) 0 32))) s) i

/-- The reset of a VF goes on (R375 items 2 to 5): its reset notice leaves, its queues are emptied, its units' state is freed, its collectives
are aborted. -/
def resetRest (vf : Nat) (s1 : State) : State :=
  let s2 := sendOut { s1 with credits := s1.credits.filter fun e => e.1 / 2097152 != vf } (.resetNotice vf)
  let s3 := ((List.range 1024).filter fun q => qOwner s2 q == vf).foldl (resetQueue vf) s2
  let s4 := { s3 with counters := s3.counters.filter fun e => counterOwner s3 e.1 != vf,
                      slots := s3.slots.filter fun e => slotOwner s3 e.1 != vf,
                      groups := s3.groups.filter fun e => e.2.owner != vf }
  ((List.range 256).filter fun i => fld (collDw s4 i 0) 63 1 == 1 && fld (collDw s4 i 0) 32 6 == vf).foldl resetColl s4

/-- The threads that run a context of a VF. -/
def threadsOf (s : State) (vf : Nat) : List Nat :=
  (liveTids s).filter fun i => (threadAt s i).run != .halted && (threadAt s i).vfid == vf

/-- Senders of the items of a VF that have left for other modules and are not answered yet (R325, R375). -/
def itemsOut (s : State) (vf : Nat) : List Nat :=
  s.outbound.filterMap fun m => match m with
    | .remoteItem tid v _ _ _ _ => if v = vf then some tid else none
    | _ => none

/-- VFRESET shows the reset that is running (R379): BUSY while one waits, whatever started it. -/
def showReset (s : State) : State :=
  match s.resets with
  | [] => devPut s (paModule 0x28) (wd (fld (devGet s (paModule 0x28)) 0 6))
  | e :: _ => devPut s (paModule 0x28) (wd (2 ^ 63 + e.1))

/-- The reset of a VF (R375), in its order: its threads stop; where items of its have left that are not answered, the rest waits
for these; a replay has none to wait for (R423). -/
def resetVf (s : State) (vf : Nat) : State :=
  let s1 := (threadsOf s vf).foldl resetThread s
  let out := if replaying s then [] else itemsOut s vf
  if out.isEmpty then resetRest vf s1
  else showReset { s1 with resets := if s1.resets.any fun e => e.1 == vf then s1.resets.map fun e => if e.1 = vf then (vf, out) else e
                             else s1.resets ++ [(vf, out)] }

/-- FUNCTION_LEVEL_RESET (R375). -/
def execFunctionLevelReset (vf : Nat) (s : State) : Host.Outcome State Fault Refusal := .next (resetVf s vf)

/-- A write of VFRESET (R375, R379): BUSY starts the reset, and reads 1 while that waits; a write while it does is ignored. -/
def writeVfreset (s : State) (v : Word) : State :=
  if fld (devGet s (paModule 0x28)) 63 1 = 1 then s
  else
    let vf := fld v 0 6
    let s1 := devPut s (paModule 0x28) (wd vf)
    if fld v 63 1 = 0 then s1 else resetVf s1 vf

/-- The answer to an item of a thread for a VF (R375 item 2): a reset of the VF that waits for it goes on with the last of them, and BUSY ends. -/
def answerReset (s : State) (tid vf : Nat) : State :=
  match s.resets.find? fun e => e.1 == vf && e.2.contains tid with
  | none => s
  | some e =>
    let l := e.2.erase tid
    if !l.isEmpty then { s with resets := s.resets.map fun x => if x = e then (e.1, l) else x }
    else showReset (resetRest e.1 { s with resets := s.resets.erase e })

/-- Is a message an item that a thread has sent to another module? -/
def Msg.itemOf (tid : Nat) (m : Msg) : Bool :=
  match m with
  | .remoteItem i _ _ _ _ _ => i == tid
  | _ => false

/-- VFID of an item, and whether its sender waits for the answer. -/
def Msg.itemVf (m : Msg) : Option (Nat × Bool) :=
  match m with
  | .remoteItem _ vf _ _ _ waits => some (vf, waits)
  | _ => none

/-- ITEM_ACCEPTANCE (R325): 0 accepted, 4 discarded. Items of a thread are answered in their order, and are counted once, as the answer reaches the
module; a reset may wait for it (R375). The answer to a QSEND.A goes on to its thread, whose core's inbound FIFO may hold it (R135); it is that of the
thread's last item. In a replay the recorded response stands for it (R423). -/
def execItemAcceptance (tid : Nat) (accepted : Bool) (s : State) : Host.Outcome State Fault Refusal :=
  .next (if replaying s then s else
    let item := (s.outbound.find? (Msg.itemOf tid)).bind Msg.itemVf
    let s0 := { s with outbound := s.outbound.eraseP (Msg.itemOf tid) }
    let s1 := (item.map fun x => answerReset s0 tid x.1).getD s0
    if (item.any fun x => !x.2) || s1.outbound.any fun m => m.itemOf tid && m.itemVf.any Prod.snd then s1
    else arriveAt s1 (coreOf tid) (.itemAcceptance tid accepted) fun x =>
      onThread x tid fun s =>
      match s.t.stall with
      | .answer d => finishAnswer s d (if accepted then 0 else 4)
      | _ => s)

/-- VFRESET (R375). -/
def execVfreset (value : Word) (s : State) : Host.Outcome State Fault Refusal := .next (writeVfreset s value)

/-- The outcome of a steward's latest request in a PREEMPT register (R379, R380), one bit for each steward; a compute thread's is kept
nowhere, since the register answers stewards alone. -/
def noteRequest (s : State) (pa steward : Nat) (refused : Bool) : State :=
  if steward < 320 then s else
  let v := (devGet s pa).toNat
  let b := 2 ^ (steward - 320)
  devPut s pa (wd (v - v / b % 2 * b + b2n refused * b))

/-- PREEMPT (R389): on behalf of H. -/
def execPreempt (steward : Nat) (value : Word) (s : State) : Host.Outcome State Fault Refusal :=
  let r := requestPreemption s (fld value 0 9) true 0
  .next (noteRequest r.1 (paModule 0x20) steward (!r.2))

/-- VF_PREEMPT (R389): on behalf of S, threads of its own VF only. -/
def execVfPreempt (vf : Nat) (value : Word) (s : State) : Host.Outcome State Fault Refusal :=
  let r := requestPreemption s (fld value 0 9) false vf
  .next (noteRequest r.1 (paVf vf 0x20) s.cur (!r.2))

/-- A write of SRAMSIZE (R249, R379): 17 to 31 are ignored; the MiBs that leave or join the window become zero, once no chunk has an
access to them in flight. -/
def writeSramsize (s : State) (die : Nat) (v : Word) : State :=
  let n := fld v 0 5
  let old := fld (devGet s (paModule (0x38 + 8 * die))) 0 5
  if 16 < n ∨ 4 ≤ die then s
  else
    let lo := Nat.min old n
    let s1 := (liveTids s).foldl (settleThread fun c => chunkIn c false (sramKey die (1048576 * lo)) (1048576 * (Nat.max old n - lo))) s
    scrub (devPut s1 (paModule (0x38 + 8 * die)) (wd n)) (sramKey die (1048576 * lo)) (1048576 * (Nat.max old n - lo))

/-- SRAMSIZE (R249). -/
def execSramsize (die : Nat) (value : Word) (s : State) : Host.Outcome State Fault Refusal := .next (writeSramsize s die value)

/-- A write of FLIM (R379, R429): clamped and rounded down to a multiple of 25; below FCUR it steps the core at once. -/
def writeFlim (s : State) (core : Nat) (v : Word) : State :=
  let n := Nat.min 1800 (Nat.max 1000 (fld v 0 12)) / 25 * 25
  if 160 ≤ core then s else
    let s1 := devPut s (paModule (0x1200 + 8 * core)) (wd n)
    if n < targetOf s1 core then governorStep s1 core n 6 else s1

/-- FLIM (R429). -/
def execFlim (core : Nat) (value : Word) (s : State) : Host.Outcome State Fault Refusal := .next (writeFlim s core value)

/-- Remove the keys of a range of a sparse list. -/
def dropRange {α : Type} (l : List (Nat × α)) (lo n : Nat) : List (Nat × α) :=
  l.filter fun e => !(decide (lo ≤ e.1) && decide (e.1 < lo + n))

/-- A write of a byte of the owner table (R381): a change zeroes the block's counters or slots, or frees its groups. -/
def writeOwner (s : State) (off : Nat) (v : Byte) : State :=
  let new := v.toNat % 128
  if 0x300 ≤ off ∨ ownerByte s off = new then s
  else
    let pa := 0x40000C20000 + off / 8 * 8
    let b := 2 ^ (8 * (off % 8))
    let w := (devGet s pa).toNat
    let s1 := devPut s pa (wd (w - w / b % 256 * b + new * b))
    if off < 0x100 then { s1 with counters := dropRange s1.counters (64 * off) 64 }
    else if off < 0x200 then { s1 with slots := dropRange s1.slots (16 * (off - 0x100)) 16 }
    else { s1 with groups := dropRange s1.groups (16 * (off - 0x200)) 16 }

/-- OWNER_TABLE_WRITE (R381). -/
def execOwnerTableWrite (off : Nat) (value : Byte) (s : State) : Host.Outcome State Fault Refusal :=
  .next (writeOwner s off value)

/-- A doorbell (R380): the item (DBLO, value) to the queue that DBQ names, from the host sender of the VF. A queue of another
module has no entry for this host. -/
def doorbell (s : State) (vf : Nat) (v : Word) : State :=
  let q := fld (devGet s (paVf vf 0x10)) 0 21
  let put (s : State) (st : Nat) : State := devPut s (paVf vf 0x18) (wd st)
  if q / 1024 ≠ moduleNo then put s 2
  else match senderEntry s (q % 1024) moduleNo vf true with
    | none => put s 2
    | some i =>
      if qKind s (q % 1024) = 0 then put s 3
      else if senderPlaces s i ≤ inUse s i then put s 1
      else put (pushItem s (q % 1024) { lo := devGet s (paVf vf 0), hi := v, place := some i }) 0

/-- A doorbell of the host (R380, R420): its high doubleword, with DBLO where 16 bytes are written in one step. -/
def hostDoorbell (vf : Nat) (lo : Option Word) (hi : Word) (s : State) : State :=
  doorbell (match lo with
    | none => s
    | some v => devPut s (paVf vf 0) v) vf hi

/-- DBHI (R380); from the host it arrives at a port (R420). -/
def execDbhi (vf : Nat) (value : Word) (s : State) : Host.Outcome State Fault Refusal :=
  .next (arrival s [0] hostPort 5 [packed 13 0 vf 0 0, value] (hostDoorbell vf none value))

/-- Has a reservation on a queue a place in use (R381)? -/
def queueReserved (s : State) (q : Nat) : Bool := (qItems s q).any fun it => it.place.isSome

/-- A write to a register with no behaviour of its own (R4, R6) and the writes that the tables refuse or treat apart: a queue's
attributes while it is held (R312, R381), a sender's entry in use (R381), MODE 11 of JCTL (R419), SKIP1 (R409). -/
def writePlainReg (s : State) (pa : Nat) (v : Word) : State :=
  let o := pa - 0x40000000000
  if 0xC00000 ≤ o ∧ o < 0xC10000 ∧ o % 64 < 16 then
    (let q := (o - 0xC00000) / 64
     if qHeld s q ≠ 0 ∨ queueReserved s q = true then s else devPlain s pa v)
  else if 0xC10000 ≤ o ∧ o < 0xC20000 then
    (if inUse s ((o - 0xC10000) / 16) ≠ 0 then s else devPlain s pa v)
  else if o = 0xA00000 ∧ fld v 0 2 = 3 then s
  else if 0x600000 ≤ o ∧ o < 0x615000 ∧ o % 0x100 = 0x48 then
    (let old := devGet s pa
     let skip := if fld v 63 1 = 1 then 0 else fld old 63 1
     devPut s pa (wd (skip * 2 ^ 63 + fld v 32 16 * 2 ^ 32 + fld v 1 8 * 2)))
  else if 0x600000 ≤ o ∧ o < 0x615000 ∧ o % 0x100 = 0x40 then
    devPut s pa (wd (fld v 61 3 * 2 ^ 61 + fld v 0 31))
  else devPlain s pa v

/-- REGISTER_WRITE (R4, R378): a register with a behaviour of its own acts as its own event does. -/
def execRegisterWrite (pa : Nat) (value : Word) (s : State) : Host.Outcome State Fault Refusal :=
  .next (
    if !isDevice pa then s
    else match devEvent s.cur pa value with
      | .vfreset v => writeVfreset s v
      | .sramsize d v => writeSramsize s d v
      | .flim c v => writeFlim s c v
      | .ownerTableWrite o b => writeOwner s o b
      | .dbhi vf v => doorbell s vf v
      | .preempt st v =>
        let r := requestPreemption s (fld v 0 9) true 0
        noteRequest r.1 (paModule 0x20) st (!r.2)
      | .vfPreempt vf v =>
        let r := requestPreemption s (fld v 0 9) false vf
        noteRequest r.1 (paVf vf 0x20) s.cur (!r.2)
      | _ => writePlainReg s pa value)

/-- An access of a thread goes on once its core's clock runs and no pass of its is in flight (R83, R134): until then it comes again. -/
def afterPass (s : State) (tid : Nat) (i : Instr) (f : State → State) : State :=
  arriveAt s (coreOf tid) i fun s =>
    if (threadAt s tid).pass.isSome then { s with agenda := s.agenda ++ [.run tid, .event i] } else onThread s tid f

/-- FSTAT_ACCESS (R83): passes and matrix instructions are waited for, and the last chunk of a pass, whose flags it brings. -/
def execFstatAccess (tid : Nat) (s : State) : Host.Outcome State Fault Refusal :=
  .next (afterPass s tid (.fstatAccess tid) fun s => waitVector (settleSealed s))

/-- CAP_AREA_WRITE (R152): at S or H, with no pass in flight. -/
def execCapAreaWrite (tid : Nat) (size : Bool) (value : Word) (s : State) : Host.Outcome State Fault Refusal :=
  .next (afterPass s tid (.capAreaWrite tid size value) fun s => if s.t.lvl = .u then s else modA s (putCapArea size value))

/-- VRS_WRITE (R219): with no pass in flight. -/
def execVrsWrite (tid : Nat) (high : Bool) (value : Word) (s : State) : Host.Outcome State Fault Refusal :=
  .next (afterPass s tid (.vrsWrite tid high value) fun s => modA s (putVrs high value))

/-- CHKLIM_WRITE (R292). -/
def execChklimWrite (tid : Nat) (value : Word) (s : State) : Host.Outcome State Fault Refusal :=
  .next (onThread s tid fun s => modA s (putChklim value))

/-- EVF_WRITE (R261). -/
def execEvfWrite (tid : Nat) (value : Word) (s : State) : Host.Outcome State Fault Refusal :=
  .next (onThread s tid fun s => modA s (clearEvf value))

/-- CTXBASE_WRITE (R386, R394): at S or H. -/
def execCtxbaseWrite (tid : Nat) (value : Word) (s : State) : Host.Outcome State Fault Refusal :=
  .next (onThread s tid fun s => if s.t.lvl = .u then s else modT s (putCtxbase value))

/-- LANE_COUNTER_READ (R407): every pass chunk of the thread has committed, a sealed one too; the value is what the CSR read returns. -/
def execLaneCounterRead (tid index : Nat) (s : State) : Host.Outcome State Fault Refusal :=
  .next (afterPass s tid (.laneCounterRead tid index) settleSealed)

end Sys2Proof.Machine
end

