-- ==== Sys2Proof/Machine/Events.lean ====
section
/-! DEFINITION. Machine/Events.lean: the events of the module that are no instruction's: reset and boot (R426 to R428), commits and
passes (R148, R149, R217, R281, R287), traps, interrupts and pre-emption (R267, R387, R390), ends of waits, engines, the matrix
array, and the entropy source. -/

namespace Sys2Proof.Machine

open Sys2Proof

/-- Has a record of a kind the units that R420 gives it? -/
def unitsFit (kind units : Nat) : Bool :=
  if kind = 1 then units == 3 else if kind = 4 then decide (2 ≤ units) && decide (units ≤ 5)
  else if kind = 5 ∨ kind = 7 then units == 2 else decide (1 ≤ kind) && decide (kind ≤ 8) && units == 1

/-- The records of a journal ring, from an offset up, to its END (R420); a malformed one is of kind 0, and nothing after it is read
(R424). -/
def parseRing (s : State) (off : Nat) : Nat → List JRec
  | 0 => []
  | n + 1 =>
    let k := s.jbase + off
    let d := leNat (rawByte s) k 8
    let units := d / 281474976710656 % 256
    let kind := d / 72057594037927936
    if !unitsFit kind units then [{ dw := [0], off := off }]
    else
      let r : JRec := { dw := (List.range (4 * units)).map fun i => wd (leNat (rawByte s) (k + 8 * i) 8), off := off }
      if kind = 8 then [r] else r :: parseRing s (off + 32 * units) n

/-- A core as the security block boots it (R129, R428): its fused TMAX takes the place of another copy in flash, and DEGR is 255 where its CRC
fails. -/
def bootCore (core : Nat) (c : Core) : Core :=
  let d := if c.flashOk then c.degr else 255
  { Core.reset core with tmax := c.tmax, degr := d, cap := capOf c.tmax d, flashTmax := c.tmax, flashOk := c.flashOk }

/-- The compute cores that are not as after reset. -/
def bootedCores (s : State) : List Core :=
  ((coreOf s.cur, s.c) :: s.cores).filterMap fun e => if e.1 < 160 then some e.2 else none

/-- The boot status (R379, R428): copies of TMAX that were rewritten, DEGRs whose CRC failed, and the failure code. -/
def bootStatus (s : State) (code : Nat) : Word :=
  let l := bootedCores s
  wd ((l.countP fun c => !c.flashOk) * 2 ^ 48 + (l.countP fun c => c.flashTmax != c.tmax) * 2 ^ 32 + code)

/-- The journal's ring size in force (R419): 0 is off, and the most is 2^20 units. -/
def ringSize (v : Word) : Nat := Nat.min 1048576 (fld v 16 21) * 65536

/-- The BOOT record's content (R420): MEAS and the module number. -/
def bootWords (m : BitVec 384) : List Word :=
  (List.range 6).map (fun i => BitVec.ofNat 64 (m.toNat / 2 ^ (64 * i))) ++ [wd moduleNo]

/-- The module after its reset, its image measured and its signature judged (R426): main memory, flash and fuses stay (log entry 20). -/
def afterReset (s : State) (code : Nat) : State :=
  let s0 := journal s 8 0 0 0 [0]
  let j (o : Nat) : Word := devGet s (0x40000A00000 + o)
  let r := State.reset
  let keepDev := s0.dev.filter fun e => decide (0x40000A00000 ≤ e.1) && decide (e.1 ≤ 0x40000A00010)
  devPut { r with
    mem := s0.mem.filter fun c => decide (c.1 < 4503599627370496),
    poison := s0.poison.filter fun l => decide (l < 70368744177664),
    dev := keepDev.map fun e => (e.1, if e.1 = 0x40000A00000 then wd (fld e.2 0 2) else e.2),
    c := bootCore 160 (coreAt s 160),
    cores := spDel ((spPut s.cores (coreOf s.cur) s.c).map fun e => (e.1, bootCore e.1 e.2)) 160,
    draws := s.draws, free := s.free + 1, healthy := s.healthy,
    jmode := if ringSize (j 0x10) = 0 then 0 else fld (j 0) 0 2, jbase := fld (j 8) 16 34 * 65536,
    jsize := ringSize (j 0x10) } (paModule 0) (bootStatus s code)

/-- The journal starts with the boot (R419, R420, R423): recording writes the BOOT record; a replay reads the ring, whose first record is the
BOOT record of this module. The hash is compared when the chain closes (R427; log entry 20). -/
def startJournal (s : State) : State :=
  let s1 := if s.jmode = 0 then s else setJState s 1
  if s.jmode = 1 then journal s1 1 0 0 0 (bootWords s.meas)
  else if s.jmode = 2 then
    match parseRing s 0 (s.jsize / 32) with
    | [] => diverge s1 5 0 0 0
    | r :: t =>
      if r.kind = 1 ∧ r.dw.getD 8 0 = wd moduleNo then { s1 with journal := t, replayPos := 32 * r.units }
      else diverge { s1 with journal := r :: t } (if r.kind = 1 then 1 else 5) 0 0 0
  else s1

/-- The stage-1 image is loaded into steward 0's memory (R426 item 4). -/
def loadImage (s : State) : State := pokeAll s (keyed Config.stage1Base Config.stage1Image)

/-- MODULE_RESET (R426, R428): where the signature fails every core is held in reset and the boot status says so. -/
def execModuleReset (s : State) : Host.Outcome State Fault Refusal :=
  .next (if Config.signatureOk s.free then startJournal (loadImage (afterReset s 0))
    else { afterReset s 1 with holdReset := true })

/-- MEAS_EXTEND (R426, R427): MEAS := SHA-384(MEAS ‖ SHA-384(image)), until the chain is closed. -/
def execMeasExtend (image : List Byte) (s : State) : Host.Outcome State Fault Refusal :=
  .next (if s.chainClosed then s
    else { s with meas := Config.sha384 (leBytes 48 s.meas.toNat ++ leBytes 48 (Config.sha384 image).toNat) })

/-- The chain of measured images closes (R427): MEAS is read-only from now on; it is the hash that the BOOT record holds, and that a replay
compares with it (R423: divergence reason 1). -/
def closeChain (s : State) : State :=
  if s.chainClosed then s
  else
    let s1 := { s with chainClosed := true }
    let words := bootWords s.meas
    if s.jmode = 1 then
      { pokeAll s1 (keyed (s.jbase + 16) ((words.map fun (d : Word) => leBytes 8 d.toNat).flatten)) with
        journal := s.journal.map fun r => if r.kind = 1 then { r with dw := r.dw.take 2 ++ words } else r }
    else if s.jmode = 2 ∧ leNat (rawByte s) (s.jbase + 16) 48 ≠ s.meas.toNat then diverge s1 1 0 0 0
    else s1

/-- The chunk of an agent that has executed and waits commits (R148, R253, R281); the last chunk of a completed pass that has been squashed runs
again first (R158). -/
def commitAgent (agent : Nat) (s : State) : State :=
  if agent < 1048576 then onThread s agent commitClosed
  else if agent < 2097152 then onThread s (agent - 1048576) fun s => match s.t.redo, s.t.pass with
    | some _, _ => settleSealed s
    | none, none => s
    | none, some p => if s.t.sealed.isSome then closePass s p else s
  else onThread s ((agent - 2097152) / 16) fun s =>
    match s.engines.find? fun e => e.tid == s.cur && e.k == agent % 16 with
    | none => s
    | some e => match e.chunk with
      | none => s
      | some c => commitEngine s e c

/-- CHUNK_COMMIT (R281): the closed chunk of a thread, the sealed chunk of its passes, or the executed chunk of an engine operation. A commit
is frozen while its core's clock stands (R134); after a module fault none takes place (R406). -/
def execChunkCommit (agent : Nat) (s : State) : Host.Outcome State Fault Refusal :=
  .next (if s.stopped || decide (176 ≤ agentCore agent) then s
    else arriveAt s (agentCore agent) (.chunkCommit agent) (commitAgent agent))

/-- CHUNK_RESERVATION (R287): an agent that is to reserve does, where its slices are free and its core's clock runs (R134). -/
def execChunkReservation (agent : Nat) (s : State) : Host.Outcome State Fault Refusal :=
  .next (if 176 ≤ agentCore agent then s else arriveAt s (agentCore agent) (.chunkReservation agent) fun s =>
    if agent < 336 then onThread s agent reserve
    else if 1048576 ≤ agent ∧ agent < 1048912 then onThread s (agent - 1048576) reservePass
    else if 2097152 ≤ agent ∧ agent < 2102528 then onThread s ((agent - 2097152) / 16) fun s =>
      match s.engines.find? fun e => e.tid == s.cur && e.k == agent % 16 with
      | none => s
      | some e => reserveEngine s e.k e.effort
    else s)

/-- PASS (R148); work in flight is frozen during a relock (R134). -/
def execPass (tid : Nat) (s : State) : Host.Outcome State Fault Refusal :=
  .next (arriveAt s (coreOf tid) (.pass tid) fun s => onThread s tid runPass)

/-- CAPTURE_PASS (R149): the pass that a store, a binding or a full graph has forced runs before its instruction acts. -/
def execCapturePass (tid : Nat) (s : State) : Host.Outcome State Fault Refusal :=
  .next (arriveAt s (coreOf tid) (.capturePass tid) fun s => onThread s tid fun s => match s.t.pass with
    | none => s
    | some p => if p.completes then s else runPass s)

/-- ELEMENT_GROUP_COMPLETION (R217). -/
def execElementGroupCompletion (tid : Nat) (s : State) : Host.Outcome State Fault Refusal :=
  .next (arriveAt s (coreOf tid) (.elementGroupCompletion tid) fun s => onThread s tid fun s => match s.t.pass with
    | none => s
    | some p => if (pickFor s p).isSome then passStep s else s)

/-- TRAP_ENTRY (R387): a trap of codes 1 to 15 of a RUNNING thread, at its boundary; a pass stops first (R218). -/
def execTrapEntry (tid cause : Nat) (addr : Word) (s : State) : Host.Outcome State Fault Refusal :=
  .next (arriveAt s (coreOf tid) (.trapEntry tid cause addr) fun s => onThread s tid fun s =>
    if s.t.run ≠ .running ∨ cause = 0 ∨ 15 < cause then s
    else
      let s1 := stopPass (settleSealed s) none
      takeTrap s1 (plainTrap cause addr) s1.t.a.pc false false s.t.pass.isSome)

/-- Is the thread that moves where a user interrupt may be taken (R267, R96, R97)? Between instructions, in PARK, in NAP or in the
stall of EVWAIT, WAITV (R306), STRIP (R328) or BARW (R338); not where a forcing instruction is still to complete. -/
def uiBoundary (s : State) : Bool :=
  uiPending s && s.t.pass.isNone && !s.t.prepared && s.c.relock.isNone && !s.c.off &&
  (match s.t.run with
   | .running => (match s.t.stall with
     | .none => true
     | .evwait _ => true
     | .waitv _ _ => true
     | .strip _ _ => true
     | .barw _ _ _ => true
     | .late _ => true
     | .yield _ => true
     | _ => false)
   | .parked => true
   | .napping => true
   | _ => false)

/-- USER_INTERRUPT (R267). -/
def execUserInterrupt (tid : Nat) (s : State) : Host.Outcome State Fault Refusal :=
  .next (onThread s tid fun s => if uiBoundary s then injected s 1 enterUi else s)

/-- Is the thread that moves where a pre-emption may land (R390)? Not while an instruction waits for what has left the core. -/
def preBoundary (s : State) : Bool :=
  preAccepted s && s.t.run != .halted && !s.c.gated && s.c.relock.isNone && !s.c.off &&
  (match s.t.stall with
   | .bara _ _ _ _ => false
   | .frame _ _ _ => false
   | .answer _ => false
   | .remote _ _ _ => false
   | .wakeAck _ _ => false
   | _ => true)

/-- PRE_EMPTION (R390). -/
def execPreEmption (tid : Nat) (s : State) : Host.Outcome State Fault Refusal :=
  .next (onThread s tid fun s => if preBoundary s then injected s 2 landPreemption else s)

/-- WAKE_DELIVERY (R94, R95). -/
def execWakeDelivery (src dst : Nat) (s : State) : Host.Outcome State Fault Refusal := .next (deliverWake s src dst)

/-- PARK_C_EXPIRY (R97): the PARK.C completes once its count has run out. -/
def execParkCExpiry (tid : Nat) (s : State) : Host.Outcome State Fault Refusal :=
  .next (arriveAt s (coreOf tid) (.parkCExpiry tid) fun s => onThread s tid fun s =>
    if s.t.run = .timed ∧ s.t.parkLeft = some 0 then complete (modT s fun t => { t with run := .running, parkLeft := none }) else s)

/-- The stall of the thread that moves ends; a stalled instruction executes again. -/
def wakeStall (s : State) : State := modT s fun t => { t with stall := .none }

/-- YIELD_EXPIRY (R98): once 16 core cycles have passed. -/
def execYieldExpiry (tid : Nat) (s : State) : Host.Outcome State Fault Refusal :=
  .next (arriveAt s (coreOf tid) (.yieldExpiry tid) fun s => onThread s tid fun s =>
    if s.t.stall = .yield 0 then wakeStall s else s)

/-- WAITV_WAKE (R306): once a commit has written the watched line. -/
def execWaitvWake (tid : Nat) (s : State) : Host.Outcome State Fault Refusal :=
  .next (arriveAt s (coreOf tid) (.waitvWake tid) fun s => onThread s tid fun s => match s.t.stall with
    | .waitv _ true => wakeStall s
    | _ => s)

/-- Does a BARW on a group have nothing left to wait for (R338, R342)? -/
def barwOver (s : State) (g : Nat) (k : Int) : Bool :=
  match groupAt s g with
  | none => true
  | some r => r.poison || !(r.members.any fun m => m.tid == s.cur) || allArrived r k

/-- Core cycles until the release of a phase reaches the core of the thread that moves, 20 IOD ticks after CP has risen (R338, R340). -/
def releaseWait (s : State) (g : Nat) (k : Int) : Nat :=
  match groupAt s g with
  | none => 0
  | some r =>
    let d := dieOf (coreOf s.cur)
    if r.poison || r.cp < k then 0
    else ceilDiv (toDie d (r.rose + (if d = 4 then 0 else 20 * 42949672960)) - s.c.clock) (incOf s.c.fcur)

/-- The BARW of the thread that moves ends (R338), once its release has come: with 0, with 2 where the thread is no member any more, or with the trap of a poisoned record
(R342); in a replay with the recorded response. -/
def endBarw (s : State) : State :=
  match s.t.stall with
  | .barw g k d =>
    if replaying s then (if (recordNext s 7).isSome then finishAnswer s d 0 else s)
    else if !barwOver s g k || releaseWait s g k != 0 then s
    else if groupBad s g then trapHere s 8 (wd g)
    else finishAnswer s d (if isMember s g s.cur then 0 else 2)
  | _ => s

/-- BARW_RELEASE (R338): the BARW completes. -/
def execBarwRelease (tid : Nat) (s : State) : Host.Outcome State Fault Refusal :=
  .next (arriveNow s (coreOf tid) (.barwRelease tid) fun s => onThread s tid endBarw)

/-- WATERMARK_WAIT_END (R328): the slot has reached the bound, or is poisoned (R331). -/
def execWatermarkWaitEnd (tid : Nat) (s : State) : Host.Outcome State Fault Refusal :=
  .next (arriveAt s (coreOf tid) (.watermarkWaitEnd tid) fun s => onThread s tid fun s => match s.t.stall with
    | .strip slot bound =>
      if (slotAt s slot).poison || decide (bound ≤ (slotAt s slot).val.toNat) then wakeStall s else s
    | _ => s)

/-- The control word at a program counter (R29, R46): the half that an 8-byte code word holds. -/
def fetchControl (s : State) : State × Except Flt Nat :=
  let pc := s.t.a.pc
  match fetchWord s (wd (pc / 8 * 8)) with
  | (s1, .error f) => (s1, .error { f with addr := wd pc })
  | (s1, .ok w) => (s1, .ok (fld w (if pc % 8 < 4 then 0 else 32) 32))

/-- Is a panel of its own die ready for the PANGET at which the thread that moves waits (R321)? -/
def ownPanel (s : State) : Bool :=
  match (fetchControl s).2 with
  | .error _ => true
  | .ok w => match decode w with
    | .ok (.panget _ a _) => (match localQueue (rd s a) with
      | none => true
      | some q => ((pickPanel s q s.cur (ownDie s q)).map Prod.snd).getD false)
    | _ => true

/-- PANGET_REMOTE_WAIT (R321): a stalled PANGET takes a grant from a panel of another die once its 1,024 cycles are over, or of its own die that is
ready. -/
def execPangetRemoteWait (tid : Nat) (s : State) : Host.Outcome State Fault Refusal :=
  .next (arriveAt s (coreOf tid) (.pangetRemoteWait tid) fun s => onThread s tid fun s =>
    match s.t.stall with
    | .panget n => if n ≠ 0 ∧ ownPanel s = false then s else
      (match fetchControl s with
       | (s1, .error f) => fltTrap s1 f
       | (s1, .ok w) => match decode w with
         | .ok (.panget d a b) => pangetOp true d a b s1
         | _ => wakeStall s1)
    | _ => s)

/-- Has the RAND of the thread that moves waited for 1 ms of its die's time, 100,000 ticks (R127)? -/
def randLate (s : State) : Bool :=
  match s.t.stall with
  | .rand since => decide (since + 4294967296000000 ≤ dieTime s (dieOf (coreOf s.cur)))
  | _ => false

/-- RAND_TIMEOUT (R127): a fatal trap, as detected hardware fault, where no healthy value has come within 1 ms. -/
def execRandTimeout (tid : Nat) (s : State) : Host.Outcome State Fault Refusal :=
  .next (arriveAt s (coreOf tid) (.randTimeout tid) fun s => onThread s tid fun s =>
    if randLate s then trapHere s 15 0 else s)

/-- DUMP (R403, R425): one that firmware requests has CAUSE 0 and REASON 1. -/
def execDump (tid : Nat) (s : State) : Host.Outcome State Fault Refusal :=
  .next (onThread s tid fun s => writeDump s (plainTrap 0 0) s.t.a.pc false 1)

/-- ENGINE_OPERATION (R253, R257 to R259). -/
def execEngineOperation (tid k : Nat) (s : State) : Host.Outcome State Fault Refusal :=
  .next (if s.stopped then s else arriveAt s (coreOf tid) (.engineOperation tid k) fun s => onThread s tid fun s => runEngine s k)

/-- ENGINE_COMPLETION (R254, R259); it ends the power gating of its core (R99). -/
def execEngineCompletion (tid k : Nat) (s : State) : Host.Outcome State Fault Refusal :=
  .next (arriveAt (ungate s (coreOf tid)) (coreOf tid) (.engineCompletion tid k) fun s => onThread s tid fun s => completeEngine s k)

/-- TILE_LOAD_COMPLETION (R231). -/
def execTileLoadCompletion (core slot : Nat) (s : State) : Host.Outcome State Fault Refusal :=
  .next (if 160 ≤ core then s else arriveAt s core (.tileLoadCompletion core slot) fun s =>
    let c := coreAt s core
    putCore s core (putSlot c slot (finishLoad (slotOf c slot))))

/-- MATRIX_STEP_COMPLETION (R233, R242): the oldest step of a core's array; `mismatch`: the array itself has erred, which in a replay that holds no
trap for it is a divergence (R424). -/
def execMatrixStepCompletion (core : Nat) (mismatch : Bool) (s : State) : Host.Outcome State Fault Refusal :=
  .next (arriveAt s core (.matrixStepCompletion core mismatch) fun s => match (coreAt s core).mat with
    | [] => s
    | m :: _ => onThread s m.tid fun s =>
      if !mismatch then finishStep s m
      else if replaying s && !(s.journal.any fun r => r.kind == 5 && r.agent == m.tid && r.eventType == 4)
      then diverge s 3 m.tid s.t.chunk.num s.replayPos
      else failStep s m)

/-- The unit accepts an arrival that it has held, once its phase is open (R334, R337); its acknowledgement is on its way to the BARA. In a replay
the recorded response stands for it (R423). -/
def acceptHeld (s : State) (tid : Nat) : State :=
  onThread s tid fun s => match s.t.stall with
    | .bara g p fcur d =>
      let done (s : State) (st : Nat) : State := modT s fun t => { t with stall := .wakeAck d (some st) }
      if replaying s then (if (recordNext s 7).isSome then done s 0 else s)
      else match groupAt s g with
        | none => done s 2
        | some r => if r.poison || decide (r.cp + 64 < p) then s else done (acceptArrival s g s.cur fcur p) 0
    | _ => s

/-- The acknowledgement reaches the BARA of the thread that moves, which completes; on a poisoned record it traps (R337, R342). A BARA held for CP +
64 traps too (DESIGN CHOICE, log entry 143). -/
def endBara (s : State) : State :=
  match s.t.stall with
  | .wakeAck d (some st) => endWake s d st
  | .bara g _ _ _ => if groupBad s g then trapHere s 8 (wd g) else s
  | _ => s

/-- BARRIER_ARRIVAL (R334, R337): the unit itself accepts at once; its acknowledgement comes to the thread's core (R135). -/
def execBarrierArrival (tid : Nat) (s : State) : Host.Outcome State Fault Refusal :=
  .next (arriveAt (acceptHeld s tid) (coreOf tid) (.barrierArrival tid) fun s => onThread s tid endBara)

/-- TRACE_SAMPLE (R415): where SAMPLE is not 0, a record beside those of the core's own clock (DESIGN CHOICE, log entry 120). -/
def execTraceSample (tid : Nat) (s : State) : Host.Outcome State Fault Refusal :=
  .next (onThread s tid fun s => if fld (devGet s (paDebug tid 0x48)) 32 16 = 0 then s else sample s)

/-- Does a thread wait in RAND? -/
def waitsForDraw (t : Thread) : Bool :=
  match t.stall with
  | .rand _ => true
  | _ => false

/-- The value of a recovered source reaches a stalled RAND whose core's clock runs and whose 1 ms is not over (R127, R134): the draw that it then
takes. -/
def giveDraw (s : State) (v : Word) : State :=
  match (liveTids s).find? fun i => waitsForDraw (threadAt s i) && !randLate (switchTo s i) && (coreAt s (coreOf i)).relock.isNone &&
      !(coreAt s (coreOf i)).off with
  | none => s
  | some i => onThread s i fun s =>
    let r := drawn s v
    modT { r.2 with draws := r.2.draws + 1 } fun t => { t with draw := some r.1, stall := .none }

/-- ENTROPY_HEALTH_CHANGE (R127). -/
def execEntropyHealthChange (healthy : Bool) (value : Word) (s : State) : Host.Outcome State Fault Refusal :=
  let s1 := { s with healthy := healthy }
  .next (if healthy then giveDraw s1 value else s1)

end Sys2Proof.Machine
end

