-- ==== Sys2Proof/Machine/Dispatch.lean ====
section
/-! DEFINITION. Dispatch.lean: one arm for each constructor of Instr. -/

namespace Sys2Proof.Machine

open Sys2Proof

def exec (i : Instr) (s : State) : Host.Outcome State Fault Refusal :=
  match i with
  | .add d a b => Sys2Proof.Machine.execAdd d a b s
  | .sub d a b => Sys2Proof.Machine.execSub d a b s
  | .mul d a b => Sys2Proof.Machine.execMul d a b s
  | .mulh d a b => Sys2Proof.Machine.execMulh d a b s
  | .mulhu d a b => Sys2Proof.Machine.execMulhu d a b s
  | .div d a b => Sys2Proof.Machine.execDiv d a b s
  | .divu d a b => Sys2Proof.Machine.execDivu d a b s
  | .rem d a b => Sys2Proof.Machine.execRem d a b s
  | .remu d a b => Sys2Proof.Machine.execRemu d a b s
  | .and d a b => Sys2Proof.Machine.execAnd d a b s
  | .or d a b => Sys2Proof.Machine.execOr d a b s
  | .xor d a b => Sys2Proof.Machine.execXor d a b s
  | .andn d a b => Sys2Proof.Machine.execAndn d a b s
  | .orn d a b => Sys2Proof.Machine.execOrn d a b s
  | .sll d a b => Sys2Proof.Machine.execSll d a b s
  | .srl d a b => Sys2Proof.Machine.execSrl d a b s
  | .sra d a b => Sys2Proof.Machine.execSra d a b s
  | .ror d a b => Sys2Proof.Machine.execRor d a b s
  | .min d a b => Sys2Proof.Machine.execMin d a b s
  | .max d a b => Sys2Proof.Machine.execMax d a b s
  | .minu d a b => Sys2Proof.Machine.execMinu d a b s
  | .maxu d a b => Sys2Proof.Machine.execMaxu d a b s
  | .slt d a b => Sys2Proof.Machine.execSlt d a b s
  | .sltu d a b => Sys2Proof.Machine.execSltu d a b s
  | .addi d a imm => Sys2Proof.Machine.execAddi d a imm s
  | .andi d a imm => Sys2Proof.Machine.execAndi d a imm s
  | .ori d a imm => Sys2Proof.Machine.execOri d a imm s
  | .xori d a imm => Sys2Proof.Machine.execXori d a imm s
  | .slli d a k => Sys2Proof.Machine.execSlli d a k s
  | .srli d a k => Sys2Proof.Machine.execSrli d a k s
  | .srai d a k => Sys2Proof.Machine.execSrai d a k s
  | .slti d a imm => Sys2Proof.Machine.execSlti d a imm s
  | .sltiu d a imm => Sys2Proof.Machine.execSltiu d a imm s
  | .lui d imm => Sys2Proof.Machine.execLui d imm s
  | .addpc d imm => Sys2Proof.Machine.execAddpc d imm s
  | .clz d a => Sys2Proof.Machine.execClz d a s
  | .ctz d a => Sys2Proof.Machine.execCtz d a s
  | .popc d a => Sys2Proof.Machine.execPopc d a s
  | .sext d a n => Sys2Proof.Machine.execSext d a n s
  | .zext d a n => Sys2Proof.Machine.execZext d a n s
  | .bswap d a => Sys2Proof.Machine.execBswap d a s
  | .lea s1 a b => Sys2Proof.Machine.execLea s1 a b s
  | .insh d a b => Sys2Proof.Machine.execInsh d a b s
  | .csel d a b => Sys2Proof.Machine.execCsel d a b s
  | .beq a b o => Sys2Proof.Machine.execBeq a b o s
  | .bne a b o => Sys2Proof.Machine.execBne a b o s
  | .blt a b o => Sys2Proof.Machine.execBlt a b o s
  | .bge a b o => Sys2Proof.Machine.execBge a b o s
  | .bltu a b o => Sys2Proof.Machine.execBltu a b o s
  | .bgeu a b o => Sys2Proof.Machine.execBgeu a b o s
  | .jal d o => Sys2Proof.Machine.execJal d o s
  | .jalr d a imm => Sys2Proof.Machine.execJalr d a imm s
  | .jtab d a b => Sys2Proof.Machine.execJtab d a b s
  | .ld d a imm s1 n => Sys2Proof.Machine.execLd d a imm s1 n s
  | .st d a imm s1 => Sys2Proof.Machine.execSt d a imm s1 s
  | .ldx d a b n s1 => Sys2Proof.Machine.execLdx d a b n s1 s
  | .stx d a b s1 => Sys2Proof.Machine.execStx d a b s1 s
  | .pref a => Sys2Proof.Machine.execPref a s
  | .csrrd d c => Sys2Proof.Machine.execCsrrd d c s
  | .csrwr d a c => Sys2Proof.Machine.execCsrwr d a c s
  | .csrset d a c => Sys2Proof.Machine.execCsrset d a c s
  | .csrclr d a c => Sys2Proof.Machine.execCsrclr d a c s
  | .rand d => Sys2Proof.Machine.execRand d s
  | .park d => Sys2Proof.Machine.execPark d s
  | .parkC a => Sys2Proof.Machine.execParkC a s
  | .wake d a b => Sys2Proof.Machine.execWake d a b s
  | .nap => Sys2Proof.Machine.execNap s
  | .yield => Sys2Proof.Machine.execYield s
  | .fence k => Sys2Proof.Machine.execFence k s
  | .chunkend => Sys2Proof.Machine.execChunkend s
  | .chunklim d a => Sys2Proof.Machine.execChunklim d a s
  | .waitv a b => Sys2Proof.Machine.execWaitv a b s
  | .ldaq d a c s1 => Sys2Proof.Machine.execLdaq d a c s1 s
  | .strl d a c s1 => Sys2Proof.Machine.execStrl d a c s1 s
  | .amoadd d a b p s1 => Sys2Proof.Machine.execAmoadd d a b p s1 s
  | .amoand d a b p s1 => Sys2Proof.Machine.execAmoand d a b p s1 s
  | .amoor d a b p s1 => Sys2Proof.Machine.execAmoor d a b p s1 s
  | .amoxor d a b p s1 => Sys2Proof.Machine.execAmoxor d a b p s1 s
  | .amomin d a b p s1 => Sys2Proof.Machine.execAmomin d a b p s1 s
  | .amomax d a b p s1 => Sys2Proof.Machine.execAmomax d a b p s1 s
  | .amominu d a b p s1 => Sys2Proof.Machine.execAmominu d a b p s1 s
  | .amomaxu d a b p s1 => Sys2Proof.Machine.execAmomaxu d a b p s1 s
  | .amoswap d a b p q s1 => Sys2Proof.Machine.execAmoswap d a b p q s1 s
  | .amocas d a b p q s1 => Sys2Proof.Machine.execAmocas d a b p q s1 s
  | .amofadd d a b p => Sys2Proof.Machine.execAmofadd d a b p s
  | .strip d o b p => Sys2Proof.Machine.execStrip d o b p s
  | .bev k c o => Sys2Proof.Machine.execBev k c o s
  | .vsetl d a => Sys2Proof.Machine.execVsetl d a s
  | .force v => Sys2Proof.Machine.execForce v s
  | .vmat v => Sys2Proof.Machine.execVmat v s
  | .vdrop v => Sys2Proof.Machine.execVdrop v s
  | .vbcast v a t => Sys2Proof.Machine.execVbcast v a t s
  | .vget v a b => Sys2Proof.Machine.execVget v a b s
  | .vins v a b => Sys2Proof.Machine.execVins v a b s
  | .vconf v b => Sys2Proof.Machine.execVconf v b s
  | .vcompact v k b => Sys2Proof.Machine.execVcompact v k b s
  | .mcnt d k => Sys2Proof.Machine.execMcnt d k s
  | .mfirst d k => Sys2Proof.Machine.execMfirst d k s
  | .mlogLogic k a t b => Sys2Proof.Machine.execMlogLogic k a t b s
  | .mlogFromVector k v => Sys2Proof.Machine.execMlogFromVector k v s
  | .mlogToVector v a => Sys2Proof.Machine.execMlogToVector v a s
  | .vld v a t => Sys2Proof.Machine.execVld v a t s
  | .vldFf v a t => Sys2Proof.Machine.execVldFf v a t s
  | .vldM k a => Sys2Proof.Machine.execVldM k a s
  | .vlds v a b t => Sys2Proof.Machine.execVlds v a b t s
  | .vldx v a b t => Sys2Proof.Machine.execVldx v a b t s
  | .vldseg v a n t => Sys2Proof.Machine.execVldseg v a n t s
  | .vldt v a b t => Sys2Proof.Machine.execVldt v a b t s
  | .vst v a k t => Sys2Proof.Machine.execVst v a k t s
  | .vsts v a b k t => Sys2Proof.Machine.execVsts v a b k t s
  | .vstx v a b k t => Sys2Proof.Machine.execVstx v a b k t s
  | .vstseg v a n k t => Sys2Proof.Machine.execVstseg v a n k t s
  | .vstt v a b k t => Sys2Proof.Machine.execVstt v a b k t s
  | .vscrAdd v a b k t => Sys2Proof.Machine.execVscrAdd v a b k t s
  | .vscrMin v a b k t => Sys2Proof.Machine.execVscrMin v a b k t s
  | .vscrMax v a b k t => Sys2Proof.Machine.execVscrMax v a b k t s
  | .vscrAnd v a b k t => Sys2Proof.Machine.execVscrAnd v a b k t s
  | .vscrOr v a b k t => Sys2Proof.Machine.execVscrOr v a b k t s
  | .vscrXor v a b k t => Sys2Proof.Machine.execVscrXor v a b k t s
  | .vredAdd v d k t => Sys2Proof.Machine.execVredAdd v d k t s
  | .vredMin v d k t => Sys2Proof.Machine.execVredMin v d k t s
  | .vredMax v d k t => Sys2Proof.Machine.execVredMax v d k t s
  | .vredAnd v d k t => Sys2Proof.Machine.execVredAnd v d k t s
  | .vredOr v d k t => Sys2Proof.Machine.execVredOr v d k t s
  | .vredXor v d k t => Sys2Proof.Machine.execVredXor v d k t s
  | .vrediMin v d k t => Sys2Proof.Machine.execVrediMin v d k t s
  | .vrediMax v d k t => Sys2Proof.Machine.execVrediMax v d k t s
  | .weave o => Sys2Proof.Machine.execWeave o s
  | .mldw s1 a t => Sys2Proof.Machine.execMldw s1 a t s
  | .mrow v a n s1 u q t => Sys2Proof.Machine.execMrow v a n s1 u q t s
  | .mrowAcc v a n s1 u q t => Sys2Proof.Machine.execMrowAcc v a n s1 u q t s
  | .mslide v a n s1 u q t => Sys2Proof.Machine.execMslide v a n s1 u q t s
  | .mslideAcc v a n s1 u q t => Sys2Proof.Machine.execMslideAcc v a n s1 u q t s
  | .mzero n a b => Sys2Proof.Machine.execMzero n a b s
  | .mread v a n s1 q r t => Sys2Proof.Machine.execMread v a n s1 q r t s
  | .mscale q a => Sys2Proof.Machine.execMscale q a s
  | .acopy d a b k => Sys2Proof.Machine.execAcopy d a b k s
  | .acopyt d a b k => Sys2Proof.Machine.execAcopyt d a b k s
  | .evwait d k => Sys2Proof.Machine.execEvwait d k s
  | .evclr d k => Sys2Proof.Machine.execEvclr d k s
  | .uiret => Sys2Proof.Machine.execUiret s
  | .icinv a b => Sys2Proof.Machine.execIcinv a b s
  | .panpost d a b => Sys2Proof.Machine.execPanpost d a b s
  | .panget d a b => Sys2Proof.Machine.execPanget d a b s
  | .pandone d => Sys2Proof.Machine.execPandone d s
  | .wmpub a b => Sys2Proof.Machine.execWmpub a b s
  | .depset a b => Sys2Proof.Machine.execDepset a b s
  | .depdec a => Sys2Proof.Machine.execDepdec a s
  | .qsend d a b => Sys2Proof.Machine.execQsend d a b s
  | .qsendNb d a b => Sys2Proof.Machine.execQsendNb d a b s
  | .qsendA d a b => Sys2Proof.Machine.execQsendA d a b s
  | .qtake d a b => Sys2Proof.Machine.execQtake d a b s
  | .gjoin d a => Sys2Proof.Machine.execGjoin d a s
  | .gleave d a => Sys2Proof.Machine.execGleave d a s
  | .bara d a => Sys2Proof.Machine.execBara d a s
  | .barw d a n => Sys2Proof.Machine.execBarw d a n s
  | .barinfo d a b => Sys2Proof.Machine.execBarinfo d a b s
  | .rld d a s1 => Sys2Proof.Machine.execRld d a s1 s
  | .rst d a s1 => Sys2Proof.Machine.execRst d a s1 s
  | .ramo d a b o => Sys2Proof.Machine.execRamo d a b o s
  | .rred v a q k => Sys2Proof.Machine.execRred v a q k s
  | .ecall => Sys2Proof.Machine.execEcall s
  | .hcall => Sys2Proof.Machine.execHcall s
  | .trap a => Sys2Proof.Machine.execTrap a s
  | .iret => Sys2Proof.Machine.execIret s
  | .ctxsave => Sys2Proof.Machine.execCtxsave s
  | .ctxload a => Sys2Proof.Machine.execCtxload a s
  | .halt a => Sys2Proof.Machine.execHalt a s
  | .brk => Sys2Proof.Machine.execBrk s
  | .tlbinv a b => Sys2Proof.Machine.execTlbinv a b s
  | .framegive d a b => Sys2Proof.Machine.execFramegive d a b s
  | .keyload d a b => Sys2Proof.Machine.execKeyload d a b s
  | .tmark a b => Sys2Proof.Machine.execTmark a b s
  | .moduleReset => Sys2Proof.Machine.execModuleReset s
  | .measExtend image => Sys2Proof.Machine.execMeasExtend image s
  | .chunkCommit agent => Sys2Proof.Machine.execChunkCommit agent s
  | .chunkReservation agent => Sys2Proof.Machine.execChunkReservation agent s
  | .pass tid => Sys2Proof.Machine.execPass tid s
  | .capturePass tid => Sys2Proof.Machine.execCapturePass tid s
  | .elementGroupCompletion tid => Sys2Proof.Machine.execElementGroupCompletion tid s
  | .trapEntry tid cause addr => Sys2Proof.Machine.execTrapEntry tid cause addr s
  | .userInterrupt tid => Sys2Proof.Machine.execUserInterrupt tid s
  | .preEmption tid => Sys2Proof.Machine.execPreEmption tid s
  | .wakeDelivery src dst => Sys2Proof.Machine.execWakeDelivery src dst s
  | .parkCExpiry tid => Sys2Proof.Machine.execParkCExpiry tid s
  | .yieldExpiry tid => Sys2Proof.Machine.execYieldExpiry tid s
  | .waitvWake tid => Sys2Proof.Machine.execWaitvWake tid s
  | .barwRelease tid => Sys2Proof.Machine.execBarwRelease tid s
  | .watermarkWaitEnd tid => Sys2Proof.Machine.execWatermarkWaitEnd tid s
  | .pangetRemoteWait tid => Sys2Proof.Machine.execPangetRemoteWait tid s
  | .randTimeout tid => Sys2Proof.Machine.execRandTimeout tid s
  | .powerGating core => Sys2Proof.Machine.execPowerGating core s
  | .gatingExit core => Sys2Proof.Machine.execGatingExit core s
  | .frequencyStep core mhz => Sys2Proof.Machine.execFrequencyStep core mhz s
  | .relockEnd core => Sys2Proof.Machine.execRelockEnd core s
  | .temperatureReading core degC => Sys2Proof.Machine.execTemperatureReading core degC s
  | .powerMeasurement watts => Sys2Proof.Machine.execPowerMeasurement watts s
  | .tcritTimeout core => Sys2Proof.Machine.execTcritTimeout core s
  | .vminTimeout rail => Sys2Proof.Machine.execVminTimeout rail s
  | .processMonitor core degr => Sys2Proof.Machine.execProcessMonitor core degr s
  | .watchdogExpiry cls inst => Sys2Proof.Machine.execWatchdogExpiry cls inst s
  | .dump tid => Sys2Proof.Machine.execDump tid s
  | .engineOperation tid k => Sys2Proof.Machine.execEngineOperation tid k s
  | .engineCompletion tid k => Sys2Proof.Machine.execEngineCompletion tid k s
  | .tileLoadCompletion core slot => Sys2Proof.Machine.execTileLoadCompletion core slot s
  | .barrierArrival tid => Sys2Proof.Machine.execBarrierArrival tid s
  | .rldRequest smod svf offset size => Sys2Proof.Machine.execRldRequest smod svf offset size s
  | .rstPacket smod svf offset size data => Sys2Proof.Machine.execRstPacket smod svf offset size data s
  | .ramoRequest smod svf offset op operand expected => Sys2Proof.Machine.execRamoRequest smod svf offset op operand expected s
  | .rredPacket smod svf offset ty scale mask data => Sys2Proof.Machine.execRredPacket smod svf offset ty scale mask data s
  | .remoteResponse tid cause value => Sys2Proof.Machine.execRemoteResponse tid cause value s
  | .remoteAcknowledgement tid cause addr => Sys2Proof.Machine.execRemoteAcknowledgement tid cause addr s
  | .remoteTimeout tid addr => Sys2Proof.Machine.execRemoteTimeout tid addr s
  | .remoteItem smod svf queue lo hi => Sys2Proof.Machine.execRemoteItem smod svf queue lo hi s
  | .itemAcceptance tid accepted => Sys2Proof.Machine.execItemAcceptance tid accepted s
  | .abortNotice smod ident => Sys2Proof.Machine.execAbortNotice smod ident s
  | .resetNotice smod svf => Sys2Proof.Machine.execResetNotice smod svf s
  | .hostWrite vf pa data => Sys2Proof.Machine.execHostWrite vf pa data s
  | .cxlMemAccess write pa data => Sys2Proof.Machine.execCxlMemAccess write pa data s
  | .dbhi vf value => Sys2Proof.Machine.execDbhi vf value s
  | .functionLevelReset vf => Sys2Proof.Machine.execFunctionLevelReset vf s
  | .vfreset value => Sys2Proof.Machine.execVfreset value s
  | .preempt steward value => Sys2Proof.Machine.execPreempt steward value s
  | .vfPreempt vf value => Sys2Proof.Machine.execVfPreempt vf value s
  | .sramsize die value => Sys2Proof.Machine.execSramsize die value s
  | .flim core value => Sys2Proof.Machine.execFlim core value s
  | .ownerTableWrite off value => Sys2Proof.Machine.execOwnerTableWrite off value s
  | .fstatAccess tid => Sys2Proof.Machine.execFstatAccess tid s
  | .capAreaWrite tid size value => Sys2Proof.Machine.execCapAreaWrite tid size value s
  | .vrsWrite tid high value => Sys2Proof.Machine.execVrsWrite tid high value s
  | .chklimWrite tid value => Sys2Proof.Machine.execChklimWrite tid value s
  | .evfWrite tid value => Sys2Proof.Machine.execEvfWrite tid value s
  | .ctxbaseWrite tid value => Sys2Proof.Machine.execCtxbaseWrite tid value s
  | .laneCounterRead tid index => Sys2Proof.Machine.execLaneCounterRead tid index s
  | .traceSample tid => Sys2Proof.Machine.execTraceSample tid s
  | .registerWrite pa value => Sys2Proof.Machine.execRegisterWrite pa value s
  | .matrixStepCompletion core mismatch => Sys2Proof.Machine.execMatrixStepCompletion core mismatch s
  | .reservationReturn queue reclaimed => Sys2Proof.Machine.execReservationReturn queue reclaimed s
  | .entropyHealthChange healthy value => Sys2Proof.Machine.execEntropyHealthChange healthy value s

end Sys2Proof.Machine
end

