-- ==== Sys2Proof/Machine/Upsets.lean ====
section
/-! DEFINITION. Machine/Upsets.lean: uncorrectable errors that the module finds by itself (R286, R331, R342, R363). -/

namespace Sys2Proof.Machine

open Sys2Proof

/-- A line is written poisoned (R119). -/
def poisonLine (s : State) (line : Nat) : State := { s with poison := addItem s.poison line }

/-- Does a chunk hold a commit-buffer entry for a line? -/
def hasLine (line : Nat) (c : Option Chunk) : Bool := (c.map fun c => c.lines.contains line).getD false

/-- Does an agent's chunk hold its grants (R286): those of its reservation, or, where the event says so of a chunk that has executed and waits to
commit, those that the slices can give it? -/
def holdsAll (s : State) (agent : Nat) (c : Chunk) (reserving granted : Bool) : Bool :=
  if reserving then (footprint c).all fun sl => s.held.contains (sl, agent) else granted && slicesFree s (footprint c)

/-- An error in the commit-buffer entry of a line, of a chunk of the thread that moves (R286): a chunk that does not yet hold its grants is
squashed, and the squash counts as true; one that holds them commits, and the line is written poisoned. An open chunk holds none but those of a
reservation. -/
def threadUpset (s : State) (line : Nat) (granted : Bool) : State :=
  let act (c : Chunk) (commit : State → State) (granted older : Bool) : State :=
    if holdsAll s s.cur c s.t.reserving granted then poisonLine (commit s) line else squash s older false
  if hasLine line s.t.closed then act (s.t.closed.getD s.t.chunk) commitClosed granted true
  else if hasLine line (some s.t.chunk) then act s.t.chunk commitOpen false false
  else s

/-- The same of the chunk of its pass in flight, or of the last one of a completed pass. -/
def passUpset (s : State) (line : Nat) (granted : Bool) : State :=
  if hasLine line s.t.sealed then
    (if holdsAll s (passAgent s.cur) (s.t.sealed.getD s.t.chunk) s.t.passEffort.reserving false
     then poisonLine (match s.t.pass with
       | some p => closePass s p
       | none => s) line
     else squashPass s false)
  else match s.t.redo with
    | none => s
    | some r =>
      if !hasLine line r.chunk then s
      else if holdsAll s (passAgent s.cur) (r.chunk.getD s.t.chunk) r.effort.reserving granted then poisonLine (settleSealed s) line
      else dropSealed s false

/-- The same of the chunk of its engine operation on flag k. -/
def engineUpset (s : State) (k line : Nat) (granted : Bool) : State :=
  match s.engines.find? fun e => e.tid == s.cur && e.k == k with
  | none => s
  | some e => match e.chunk with
    | none => s
    | some c =>
      if !hasLine line (some c) then s
      else if holdsAll s (engineAgent s.cur k) c e.effort.reserving granted then poisonLine (commitEngine s e c) line
      else squashEngine s k false

/-- An error in a history record of the thread that moves (R286): of its pass, in flight or completed, or of its oldest chunk. A chunk that holds
its grants needs the record no more; another one is squashed, and as the squash needs the record the thread traps after it. -/
def historyUpset (ofPass : Bool) (s : State) : State :=
  let bad (c : Chunk) : Chunk := { c with badHist := true }
  let holds (c : Option Chunk) (agent : Nat) (reserving : Bool) : Bool := c.all fun c => holdsAll s agent c reserving false
  if ofPass then
    match s.t.sealed, s.t.redo with
    | some c, _ =>
      if holds (some c) (passAgent s.cur) s.t.passEffort.reserving then s
      else squashPass (modT s fun t => { t with sealed := t.sealed.map bad }) false
    | none, some r =>
      if holds r.chunk (passAgent s.cur) r.effort.reserving then s
      else dropSealed (modT s fun t => { t with redo := t.redo.map fun r => { r with chunk := r.chunk.map bad } }) false
    | none, none => s
  else match s.t.closed with
    | some _ => squash (modT s fun t => { t with closed := t.closed.map bad }) true false
    | none =>
      if s.t.chunk.history = 0 ∨ holds (some s.t.chunk) s.cur s.t.reserving = true then s
      else squash (modT s fun t => { t with chunk := bad t.chunk }) false false

/-- An error in a dirty line that is evicted (R363): it is charged to the owner of the line's frame, and nobody traps. A frame of the
hypervisor, OWNER 64, has no VF page, and a line of no frame no owner. -/
def evictionUpset (s : State) (line : Nat) : State :=
  let pa := 64 * line
  let lo := wd (7 * 2 ^ 56)
  let s1 := poisonLine s line
  match fotIndex pa with
  | none => hRecord s1 lo (wd pa)
  | some i =>
    let vf := fotEntry s (fld s.t.fotbase 16 34 * 65536) i / 65536 % 128
    hRecord (if vf < 64 then vfRecord (devBump s1 (paCount vf 64)) vf lo (wd pa) else s1) lo (wd pa)

/-- An uncorrectable error is found, in a chunk that a relock freezes once that is over (R134); what is no error is done elsewhere. -/
def upsetError (u : Upset) (s : State) : State :=
  match u with
  | .buffer agent line granted =>
    if agent < 336 then onThread s agent fun s => unlessFrozen s fun s => threadUpset s line granted
    else if 1048576 ≤ agent ∧ agent < 1048912 then onThread s (agent - 1048576) fun s => unlessFrozen s fun s => passUpset s line granted
    else if 2097152 ≤ agent ∧ agent < 2102528 then
      onThread s ((agent - 2097152) / 16) fun s => unlessFrozen s fun s =>
        engineUpset s (agent % 16) line granted
    else s
  | .history tid ofPass => if 320 ≤ tid then s else onThread s tid fun s => unlessFrozen s (historyUpset ofPass)
  | .eviction line => evictionUpset s line
  | .panel tid => upsetPanel s tid
  | .item q place => upsetItem s q place
  | .counter i => upsetCounter s i
  | .slot i => upsetSlot s i
  | .group g => upsetGroup s g
  | _ => s

/-- A copy in a core's flash entry is spoilt (R428): the CRC of its DEGR, or its TMAX. -/
def flashUpset (s : State) (core : Nat) (crc : Bool) : State :=
  if 160 ≤ core then s
  else
    let c := coreAt s core
    putCore s core (if crc then { c with flashOk := false } else { c with flashTmax := Config.flashTmax core })

/-- The lanes of cluster c of the pass in flight of the thread that moves wait for n core cycles, for register-file data or space or for banks that others
use (R190, R251): no rule bounds such a wait (DESIGN CHOICE, log entry 133). -/
def laneWaits (c n : Nat) (s : State) : State :=
  modT s fun t => { t with pass := t.pass.map fun p => { p with lost := p.lost.setIfInBounds c (p.lost.toList.getD c 0 + n) } }

/-- The lane of an index register's element, as the stream controller can have it ahead of a pass (R252): of a resident register, or of one that a
leaf supplies; none elsewhere. -/
def aheadLane (s : State) (v : Val) (e : Nat) : Option Lane :=
  match v.ref with
  | .res l => some (l.getD e 0)
  | .leaf slot f => match s.t.a.leaves.find? fun l => l.slot == slot with
    | none => none
    | some l => match lookup s (who s) .read (elemAddr l.base l.lay l.ty e f 0) with
      | .error _ => none
      | .ok (k, _) => if isDevice k then none else some (laneOf l.ty (leNat (memByte s) k (tyBytes l.ty)))
  | _ => none

/-- The address of element e of a stream, as far as it can be known ahead (R252). -/
def aheadAddr (s : State) (base : Word) (lay : Layout) (ty e : Nat) : Option Word :=
  match lay with
  | .indexed idx => (aheadLane s idx e).map fun x => elemAddr base lay ty e 0 (readAs 3 idx.ty x)
  | lay => some (elemAddr base lay ty e 0 0)

/-- The pages from one element of a stream to a later one, of 64 KiB: no more than the elements between them (R252). -/
def pagesAhead (a b : Word) (n : Nat) : Nat :=
  Nat.min n (Nat.max (a.toNat / 65536) (b.toNat / 65536) - Nat.min (a.toNat / 65536) (b.toNat / 65536))

/-- The stream controller translates the page of an element of a stream ahead of its use, at most 256 pages from the stream's lowest unfinished element
(R252, R350): a failure is counted, and a translation that needs no accessed bit enters the TLBs. -/
def translateAhead (s : State) (kind : Kind) (base : Word) (lay : Layout) (ty e : Nat) : State :=
  let low := ((s.t.pass.map Pass.first).getD 0)
  match aheadAddr s base lay ty e with
  | none => s
  | some va =>
    let n := match lay with
      | .indexed _ => e - low
      | lay => pagesAhead (elemAddr base lay ty low 0 0) va (e - low)
    if e < low ∨ 256 < n then s
    else match lookup s (who s) kind va with
      | .error _ => devBump s (paCount s.t.vfid 24)
      | .ok (_, none) => s
      | .ok (_, some x) => if bitAt x.entry 6 then useLeaf s (who s) .read va.toNat x else s

/-- The stream controller runs ahead (R252): on the leaf in slot 0 to 7, or on sink 0 to 3 of the running pass, from 8 on. -/
def runAhead (slot e : Nat) (s : State) : State :=
  if slot < 8 then
    match s.t.a.leaves.find? fun l => l.slot == slot with
    | none => s
    | some l => if l.len ≤ e then s else translateAhead s .read l.base l.lay l.ty e
  else
    match (s.t.pass.map Pass.sinks).bind fun l => l[slot - 8]? with
    | none => s
    | some k =>
      let ty := (k.srcs.headD Val.empty).ty
      if k.len ≤ e then s else match k.kind with
        | .store base lay => translateAhead s .write base lay ty e
        | .scatter _ base idx => translateAhead s .amo base (.indexed idx) ty e
        | .capture base _ => translateAhead s .write base .unit ty e
        | _ => s

/-- The number of a thread's chunk in which an error is found: of its closed one, where it is in that, else of its open one. -/
def upsetChunk (t : Thread) (inClosed : Thread → Bool) : Nat := if inClosed t then uncommitted t else t.chunk.num

/-- The number of the chunk of a thread's passes in which an error is found: of the pass in flight, or else of the last chunk of a completed one. -/
def upsetPass (t : Thread) (inFlight : Thread → Bool) : Nat :=
  match t.redo, inFlight t with
  | some r, false => r.p.chunks
  | _, _ => (t.pass.map Pass.chunks).getD 0

/-- The agent in which an uncorrectable error is found, and the number of its chunk (R425); 0 for that of a unit. -/
def upsetAgent (u : Upset) (s : State) : Nat × Nat :=
  match u with
  | .buffer agent line _ =>
    (agent, if agent < 1048576 then upsetChunk (threadAt s agent) fun t => hasLine line t.closed
      else if agent < 2097152 then upsetPass (threadAt s (agent - 1048576)) fun t => hasLine line t.sealed
      else ((s.engines.find? fun e => engineAgent e.tid e.k == agent).map EngineOp.chunks).getD 0)
  | .history tid ofPass =>
    if ofPass then (passAgent tid, upsetPass (threadAt s tid) fun t => t.sealed.isSome) else (tid, upsetChunk (threadAt s tid) fun t => t.closed.isSome)
  | _ => (0, 0)

/-- What the module finds by itself, and what reaches it that no row of the table names. A corrected fault is counted, in a replay apart
(R405, R424); an uncorrectable one in a replay is a divergence (R424). -/
def upset (u : Upset) (s : State) : State :=
  match u with
  | .corrected => devBump s (if s.jmode = 2 then 0x40000A00020 else paModule 8)
  | .rail r mv => railReading s r mv
  | .flash core crc => flashUpset s core crc
  | .chain => closeChain s
  | .doorbell vf lo hi =>
    arrival s [0] hostPort 5 [packed 14 0 vf 0 0, lo, hi] (hostDoorbell vf (some lo) hi)
  | .laneWait tid c n => onThread s tid (laneWaits c n)
  | .runAhead tid slot e => if 320 ≤ tid then s else onThread s tid (runAhead slot e)
  | u => if replaying s then diverge s 3 (upsetAgent u s).1 (upsetAgent u s).2 s.replayPos else upsetError u s

end Sys2Proof.Machine
end

