-- ==== Sys2Proof/Machine/Boundary.lean ====
section
/-! DEFINITION. Machine/Boundary.lean: an instruction boundary of the thread that moves (R46, R87 to R89, R97, R98, R128, R133, R390, R391,
R410): what it waits for and the passing of time, what comes before the next instruction, its fetch and its issue; which thread moves
next; and a replay (R423 to R425). -/

namespace Sys2Proof.Machine

open Sys2Proof

/-- One outcome of a step. -/
abbrev Out := Host.Outcome State Fault Refusal

/-- A row of the table that is an event of the module, not an instruction with a word (R33). -/
def isEvent (i : Instr) : Bool := encode i == 0

/-- The thread whose turn comes after that of the one that moved last: the next THREADID that runs a context, or whose core is to step (R134), in a
circle (log entry 2). -/
def nextLive (s : State) : Nat :=
  let steps (c : Core) : Bool := c.stepHeld.isSome || c.relock.isSome
  let l := (liveTids s).filter fun i => (threadAt s i).run != .halted || steps (coreAt s (coreOf i))
  let least (l : List Nat) : Nat := l.foldl Nat.min (l.headD s.cur)
  match l.filter fun i => decide (s.cur < i) with
  | [] => if l.isEmpty then s.cur else least l
  | h => least h

/-- The chunk must close at this boundary (R272, R273, R278); in a replay, at the recorded extent (R423). -/
def closesHere (s : State) : Bool :=
  decide (s.t.chunk.count ≠ 0) &&
  (if replaying s then extentReached s else overOccupied s.t.chunk || decide (s.t.a.chkEff ≤ s.t.chunk.count))

/-- Would the commit of its closed chunk squash the open chunk of the thread that moves (R283)? It then comes before anything else that
the thread does (log entry 122). -/
def ownHit (s : State) : Bool :=
  !s.t.reserving && (match s.t.closed with
    | none => false
    | some c => sigHits c.writeL c.writeG s.t.chunk)

/-- Core cycles until what the thread that moves is stalled on lets it go on, none while it waits for something else (R87); in a replay the
recorded response stands for a unit's answer (R423). -/
def stallWait (s : State) : Option Nat :=
  let now (b : Bool) : Option Nat := if b then some 0 else none
  let recorded := (recordNext s 7).isSome
  match s.t.stall with
  | .none => some 0
  | .waitv _ hit => now hit
  | .evwait k => now (s.t.a.done.getLsbD k || !((outstanding s).contains k))
  | .engine k => now (!engineBusy s k)
  | .bara g p _ _ => now (if replaying s then recorded else match groupAt s g with
    | none => true
    | some r => r.poison || decide (p ≤ r.cp + 64))
  | .barw g k _ => if replaying s then now recorded else if barwOver s g k then some (releaseWait s g k) else none
  | .strip slot bound => now ((slotAt s slot).poison || decide (bound ≤ (slotAt s slot).val.toNat))
  | .qsend q => now (recorded || placeFree s (wd q) || (qsendRefused s (wd q)).isSome)
  | .answer _ => now recorded
  | .rand _ => now (s.healthy || randLate s)
  | .remote _ _ _ => none
  | .acks => now (decide (s.t.unacked = 0))
  | .wakeAck _ st => now (st.isSome || recorded)
  | .yield n => some n
  | .panget n => if ownPanel s then some 0 else some n
  | .late n => some n
  | .slot i =>
    let o := threadAt s (siblingOf s.cur)
    now (!loadsSlot o i || !(o.run == .running && o.stall == .none && o.pass.isNone))
  | .frame _ _ _ => some 0

/-- Core cycles until the pass in flight of the thread that moves has its next group to issue, or none while it waits for a cluster (R102) or
for slices (R287). -/
def passWait (s : State) (p : Pass) : Option Nat :=
  let e := s.t.passEffort
  if settlesFirst s p || watchReady s then some 0
  else if (pickFor s p).isSome ∧
      (holdsCluster s = false ∨ (e.wanted ≠ [] ∧ e.reserving = false ∧ slicesFree s e.wanted = false)) then none
  else some (passDue s p)

/-- May the event of a record take place at this boundary (R423)? A frequency step takes place before the boundary. -/
def eventReady (s : State) (r : JRec) : Bool :=
  match r.eventType with
  | 1 => uiBoundary s
  | 2 => preBoundary s
  | 3 => s.t.a.token && (s.t.run == .parked || s.t.run == .napping)
  | 5 => false
  | _ => true

/-- Is a trap that was kept for a boundary of the thread that moves taken without a record's place? In a replay those of causes 8 and 15 are taken where
their records say (R422, R423). -/
def keptTrap (s : State) : Bool := s.t.deferred.any fun tr => !replaying s || (tr.cause != 8 && tr.cause != 15)

/-- Core cycles until the thread that moves has something to do; none while it waits for what does not come with time (R87). -/
def waitOf (s : State) : Option Nat :=
  let now (b : Bool) : Option Nat := if b then some 0 else none
  if s.t.run = .halted then none
  else if s.t.dropped || (s.t.pass.isNone && closesHere s) || ownHit s then some 0
  else if mustWait s then now (slicesFree s s.t.wanted)
  else match eventDue s with
    | some r => now (eventReady s r)
    | none =>
      if preBoundary s && !replaying s then some 0
      else match s.t.pass, s.t.run with
        | some p, _ => passWait s p
        | none, .running => if keptTrap s || (uiBoundary s && !replaying s) then some 0 else stallWait s
        | none, .timed => some (s.t.parkLeft.getD 0).toNat
        | none, .parked => now (if replaying s then s.t.a.token else uiBoundary s)
        | none, .napping => now (if replaying s then s.t.a.token else uiBoundary s)
        | none, .halted => none

/-- The lesser of two waits. -/
def sooner (a b : Option Nat) : Option Nat :=
  match a, b with
  | some m, some n => some (Nat.min m n)
  | some m, none => some m
  | none, x => x

/-- The wait of thread tid. -/
def waitAt (s : State) (tid : Nat) : Option Nat := waitOf (switchTo s tid)

/-- The wait of a core: that of the thread of its two that goes on first. -/
def coreWait (s : State) (core : Nat) : Option Nat :=
  if core < 160 then sooner (waitAt s (2 * core)) (waitAt s (2 * core + 1)) else waitAt s (160 + core)

/-- The thread that takes the turn of a thread (R89): of two that are ready the one that did not issue last, and CT0 where neither has;
else the one that is ready first. -/
def slotFor (s : State) (tid : Nat) : Nat :=
  if isSteward tid then tid
  else
    let o := siblingOf tid
    match waitAt s tid, waitAt s o with
    | some 0, some 0 =>
      let last := (coreAt s (coreOf tid)).lastIssue
      if last == some (tid % 2) || (last == none && tid % 2 == 1) then o else tid
    | some a, some b => if b < a then o else tid
    | none, some _ => o
    | _, none => tid

/-- A PC breakpoint of the thread that moves matches its next instruction (R409, R410). -/
def pcBreak (s : State) : Bool :=
  (s.t.lvl == .u || s.t.lvl == .s) &&
  [0, 1, 2, 3].any fun i =>
    let v := devGet s (paDebug s.cur (8 * i))
    decide (fld v 63 1 = 1) && decide (fld v (if s.t.lvl = .u then 62 else 61) 1 = 1) &&
    decide (fld v 2 50 = s.t.a.pc / 4 % 1125899906842624)

/-- SKIP1 of the thread that moves (R409). -/
def skip1 (s : State) : Bool := decide (fld (devGet s (paDebug s.cur 0x48)) 63 1 = 1)

/-- Set SKIP1. -/
def setSkip1 (s : State) (b : Bool) : State :=
  let v := (devGet s (paDebug s.cur 0x48)).toNat
  devPut s (paDebug s.cur 0x48) (wd (v % 9223372036854775808 + 9223372036854775808 * b2n b))

/-- The x registers that a control word reads, by its major opcode and its fields (R26 to R33); where it does not read a field as a source,
the field counts as one (DESIGN CHOICE, log entry 119). -/
def wordReads (w : Nat) : List Nat :=
  let op := w / 67108864
  let d := fld w 21 5
  let a := fld w 16 5
  let b := fld w 11 5
  (if op = 1 ∨ (32 ≤ op ∧ op < 36) ∨ op = 40 then [a, b]
   else if (2 ≤ op ∧ op ≤ 7) ∨ op = 19 ∨ op = 24 then [a]
   else if op = 8 ∨ op = 9 ∨ op = 18 ∨ op = 22 then []
   else if op = 10 then (if fld w 5 6 < 6 then [a] else if fld w 5 6 = 6 then [a, b] else [d, a, b])
   else if (12 ≤ op ∧ op ≤ 17) ∨ op = 25 then [d, a]
   else if op = 26 ∧ fld w 5 6 = 0 then [a, b]
   else if op = 48 then (if 1 ≤ fld w 12 4 ∧ fld w 12 4 ≤ 3 then [a] else [])
   else [d, a, b]).filter (· ≠ 0)

/-- The further x registers that an instruction reads, which its word does not name: the other of a pair (R308, R325), a grant's four (R322), and
the broadcasts of the block that a WEAVE reads (R36, R144). -/
def moreReads (s : State) (w : Nat) : List Nat :=
  let next (n : Nat) (r : Reg) : List Nat := (List.range n).map fun i => (r.toNat + 1 + i) % 32
  (match decode w with
   | .ok (.amoswap _ _ b _ q _) => if q = 1 then next 1 b else []
   | .ok (.amocas d _ b _ q _) => if q = 1 then next 1 b ++ next 1 d else []
   | .ok (.qsend _ _ b) => next 1 b
   | .ok (.qsendNb _ _ b) => next 1 b
   | .ok (.qsendA _ _ b) => next 1 b
   | .ok (.pandone d) => next 3 d
   | .ok (.weave o) => (match (fetchWord s (wd (relTarget s.t.a.pc o.toInt))).2 with
     | .error _ => []
     | .ok h => ((List.range 8).filter (bitAt h.toNat)).map fun k => ef h.toNat (43 - 5 * k) 5)
   | _ => []).filter (· ≠ 0)

/-- The x register that a control word of R128 writes. -/
def wordWrites (w : Nat) : Option Nat :=
  let op := w / 67108864
  if op = 10 ∧ fld w 5 6 = 6 then some (fld w 16 5)
  else if op ≤ 10 ∨ op = 18 ∨ op = 19 ∨ op = 24 ∨ (op = 26 ∧ fld w 5 6 = 0) ∨ op = 48 then some (fld w 21 5) else none

/-- Is an instruction a conditional branch that is taken, or a JTAB whose index is in range (R128)? -/
def branchTaken (s : State) (i : Instr) : Bool :=
  match i with
  | .beq a b _ => rd s a == rd s b
  | .bne a b _ => rd s a != rd s b
  | .blt a b _ => decide ((rd s a).toInt < (rd s b).toInt)
  | .bge a b _ => decide ((rd s b).toInt ≤ (rd s a).toInt)
  | .bltu a b _ => decide ((rd s a).toNat < (rd s b).toNat)
  | .bgeu a b _ => decide ((rd s b).toNat ≤ (rd s a).toNat)
  | .jtab d _ b => decide ((rd s d).toNat < (rd s b).toNat)
  | _ => false

/-- Is an instruction a division (R128)? -/
def isDivision (i : Instr) : Bool :=
  match i with
  | .div _ _ _ => true
  | .divu _ _ _ => true
  | .rem _ _ _ => true
  | .remu _ _ _ => true
  | _ => false

/-- Core cycles for which an instruction must still wait that would issue in the present cycle: its operands, the divider, and what holds up
every instruction (R87, R128). -/
def lateness (s : State) (w : Nat) : Nat :=
  let keys := 33 :: (if (match decode w with
    | .ok i => isDivision i
    | .error _ => false) then [32] else []) ++ wordReads w ++ (if s.t.late.isEmpty then [] else moreReads s w)
  let left (e : Nat × Word) : Nat := let n := (e.2 - s.c.cyc).toNat; if n < 9223372036854775808 then n else 0
  ((s.t.late.filter fun e => keys.contains e.1).map left).foldl Nat.max 0

/-- When the results of an instruction that issues in cycle c and has completed can be used (R128): register or key, and cycle. A load misses
by x cycles, and its thread waits for the line. -/
def resultsAt (i : Instr) (w : Nat) (c : Word) (x : Nat) (taken : Bool) : List (Nat × Word) :=
  let d := fld w 21 5
  let at_ (n : Nat) : Word := c + wd n
  match i with
  | .mul _ _ _ => [(d, at_ 3)]
  | .mulh _ _ _ => [(d, at_ 3)]
  | .mulhu _ _ _ => [(d, at_ 3)]
  | .ld _ _ _ _ _ => [(d, at_ (3 + x)), (33, at_ (1 + x))]
  | .ldx _ _ _ _ _ => [(d, at_ (3 + x)), (33, at_ (1 + x))]
  | .jal _ _ => [(33, at_ 2)]
  | .jalr _ _ _ => [(33, at_ 2)]
  | .jtab _ _ _ => if taken then [(33, at_ 5)] else []
  | i => if isDivision i then [(d, at_ 34), (32, at_ 34)] else if taken ∧ 12 ≤ w / 67108864 ∧ w / 67108864 ≤ 17 then [(33, at_ 2)] else []

/-- The instruction that issued in a state has acted (R87, R128, R410): where it is to issue again it has begun; else the times of its results
are kept. -/
def acted (i : Instr) (w : Nat) (s t : State) : State :=
  if t.cur ≠ s.cur then t
  else
    let pc := s.t.a.pc
    let again := decide (t.t.a.pc = pc) && (t.t.stall != .none || t.t.pass.isSome || t.t.prepared || t.t.run == .timed)
    if again then modT t fun t => { t with begun := some pc }
    else
      let taken := branchTaken s i || decide (t.t.a.pc ≠ (pc + 4) % 18446744073709551616)
      let x := Config.extraCycles t.free
      let kept := s.t.late.filter fun e => decide ((e.2 - s.c.cyc).toNat < 9223372036854775808) && e.2 != s.c.cyc && some e.1 != wordWrites w
      modT (if w / 67108864 = 24 ∨ w / 67108864 = 26 then useFree t else t) fun t =>
        { t with begun := none, late := resultsAt i w s.c.cyc x taken ++ kept }

/-- The instruction issues (R89, R98, R146, R328, R410): a sibling in YIELD becomes ready, an issue after IRET clears SKIP1, what was captured
for another instruction is released, and another STRIP's wait at this level is over. -/
def issued (s : State) : State :=
  let s1 := if s.t.afterIret && skip1 s then setSkip1 s false else s
  let s2 := { modT s1 fun t => { t with afterIret := false, prepared := false,
                                        a := { t.a with inner := if t.prepared then t.a.inner else [], freeing := if t.prepared then t.a.freeing else none,
                                                        strip := t.a.strip.filter fun w => w.pc == t.a.pc || !w.mine s1 } } with
              c := { s1.c with lastIssue := some (s.cur % 2) } }
  if isSteward s2.cur then s2 else
    let o := siblingOf s2.cur
    let t := threadAt s2 o
    match t.stall with
    | .yield _ => putThread s2 o { t with stall := .none }
    | _ => s2

/-- Does what an instruction has added to the open chunk fit: entries of the commit buffer (R275), history (R276), and the slices of a
reservation (R287)? In a replay the recorded extents say where chunks close (R423). -/
def fits (s : State) : Bool := replaying s || (!entriesFull s && !historyFull s && !outside s)

/-- Has an instruction's own commit squashed a chunk of its thread that the instruction rests on (R283)? -/
def undercut (s t : State) : Bool :=
  (s.t.closed.isSome || s.t.redo.isSome) && t.t.chkstat.toList.getD 1 0 != s.t.chkstat.toList.getD 1 0

/-- What comes first where an instruction's commits would undo what it rests on. -/
def commitFirst (s : State) : State := if s.t.closed.isSome then commitClosed s else settleSealed s

/-- The first instruction under a reservation of the thread that moves lies outside its slices: they are given back, and reserved anew with those that
it needs (R287, R288). -/
def widenThread (s : State) (foot : List Nat) : State :=
  modT (pauseHold s s.cur) fun t => { t with wanted := (List.range 16).filter fun sl => t.wanted.contains sl || foot.contains sl }

/-- The chunk before an instruction closes, or waits, so that the instruction fits the next one (R275, R276, R287); a closing for want of room
counts in CAPCLOSE (R293). A chunk that has written nothing and finds no entries waits for those of others (R275). -/
def makeRoom (s t : State) : State :=
  if outside t then
    (if s.t.chunk.idle then widenThread s (footprint t.t.chunk) else commitOpen s)
  else if entriesFull t && s.t.chunk.lines.isEmpty then
    (if s.t.closed.isSome then commitClosed s else { s with outOfTurn := true })
  else if s.t.chunk.idle then commitClosed s
  else closeLater (bumpStat s 4 1)

/-- An instruction of a word executes; where its commits would undo what it rests on these come first, and where what it needs does not fit the
open chunk, that closes before it (R272, R275, R276, R283, R287). -/
def runFitting (i : Instr) (w : Nat) (s : State) : Out :=
  let wait (x : State) : Out := .next (modT x fun t => { t with begun := some s.t.a.pc })
  match exec i s with
  | .next t =>
    if undercut s t then wait (commitFirst s)
    else if fits t || t.cur != s.cur then .next (acted i w s t)
    else wait (makeRoom s t)
  | .fault f => .fault f
  | .refused r => .refused r

/-- Does the PC breakpoint of the next instruction hold (R410)? Not for one that follows an IRET under SKIP1, nor for one that has begun. -/
def breaksHere (s : State) : Bool :=
  pcBreak s && !(s.t.afterIret && skip1 s) && !(s.t.begun == some s.t.a.pc)

/-- A trap at a boundary, after what its own commits would undo. -/
def trapAfter (s t : State) : Out := .next (if undercut s t then commitFirst s else t)

/-- The next instruction is fetched, judged and issued in one core cycle (R34, R46, R128, R410): a fetch fault first, then a breakpoint,
then the word; one whose operands are late waits for them. A breakpoint sets SKIP1 once what the chunk has written to device registers has
acted (R378). -/
def issue (s : State) : Out :=
  match fetchControl (cyclesPass s 1) with
  | (s1, .error f) => trapAfter s (fltTrap s1 f)
  | (s1, .ok w) =>
    if 0 < lateness s1 w then .next (modT s fun t => { t with stall := .late (lateness s1 w) })
    else if breaksHere s1 then trapAfter s (settled s1 fun s => trapHere (setSkip1 s true) 9 (wd s.t.a.pc))
    else
      let s2 := issued s1
      match decode w with
      | .error _ => trapAfter s (illegal s2 w)
      | .ok i => runFitting i w s2

/-- Has a trap been taken whose resume address is the instruction at which a state stands (R384, R387)? -/
def trappedAt (s t : State) : Bool :=
  let pc := pcBits s.t.a.pc
  t.cur == s.cur &&
  ((t.t.lvl == .s && t.t.trappc == pc && nested t.t.tstatus && !nested s.t.tstatus && t.t.a.pc == t.t.tvec.toNat) ||
   (t.t.lvl == .h && t.t.htrappc == pc && nested t.t.hstatus && !nested s.t.hstatus && t.t.a.pc == t.t.hvec.toNat))

/-- Does an instruction trap where it stands, for its level, its core, or what it names or accesses (R34, R46, R50, R119), fatally or not? HALT alone
halts its thread without a trap. -/
def trapsHere (i : Instr) (s : State) : Bool :=
  match exec i s with
  | .next t => trappedAt s t || (t.t.run == .halted && !(match i with
    | .halt _ => true
    | _ => false))
  | _ => false

/-- Does a trap of this boundary come before a pre-emption (R391): a watched group's of a pass, one that was kept for it (of R159 or R242; DESIGN CHOICE,
log entry 132), or a fetch fault, a PC breakpoint or a trap of the instruction of a thread that can issue? -/
def trapsNow (s : State) : Bool :=
  s.t.run == .running && (watchReady s || (s.t.pass.isNone &&
  (s.t.deferred.isSome ||
   (stallWait s == some 0 &&
    (match fetchControl s with
     | (_, .error _) => true
     | (s1, .ok w) => breaksHere s1 || (match decode w with
       | .error _ => true
       | .ok i => trapsHere i s1))))))

/-- A trap that was kept for this boundary is taken (R159, R242). -/
def takeDeferred (s : State) (tr : Trap) : State :=
  let s1 := settleSealed s
  takeTrap (modT s1 fun t => { t with deferred := none }) tr s1.t.a.pc false true false

/-- n core cycles of waiting: as many of them pass as no other thing of the core is due in, in steps that are free (log entries 2 and 3). -/
def passCycles (s : State) (n : Nat) : State :=
  let m := if isSteward s.cur then n else match waitAt s (siblingOf s.cur) with
    | some k => Nat.min n k
    | none => n
  if m = 0 then s else useFree (cyclesPass s (1 + Config.extraCycles s.free % m))

/-- A stalled thread whose wait is over (R87): the event that ends it, or its instruction again. DESIGN CHOICE (log entry 94): a stall on an
engine operation closes no chunk, not even the one in which the operation was issued. -/
def goesOn (s : State) : Out :=
  let tid := s.cur
  match s.t.stall with
  | .none => issue s
  | .waitv _ _ => exec (.waitvWake tid) s
  | .bara _ _ _ d => if replaying s then .next (finishAnswer s d 0) else exec (.barrierArrival tid) s
  | .barw _ _ _ => exec (.barwRelease tid) s
  | .strip _ _ => exec (.watermarkWaitEnd tid) s
  | .answer d => .next (finishAnswer s d 0)
  | .wakeAck d st => .next (endWake s d (st.getD 0))
  | .yield _ => exec (.yieldExpiry tid) s
  | .panget _ => exec (.pangetRemoteWait tid) s
  | .slot i =>
    if loadsSlot (threadAt s (siblingOf tid)) i then .next (onThread s (siblingOf tid) commitOpen) else issue (wakeStall s)
  | .frame _ _ _ => .next (endFrame s)
  | .remote _ _ _ => .next s
  | .evwait _ => issue (wakeStall s)
  | .engine _ => issue (wakeStall s)
  | .qsend _ => issue (wakeStall s)
  | .rand _ => if randLate s then exec (.randTimeout tid) s else
    let r := drawWord s
    issue (wakeStall (modT r.2 fun t => { t with draw := some r.1 }))
  | .acks => issue (wakeStall s)
  | .late _ => issue (wakeStall s)

/-- A wait: nothing, core cycles, or what follows it. -/
def after (s : State) (wait : Option Nat) (go : State → Out) : Out :=
  match wait with
  | none => .next s
  | some 0 => go s
  | some (n + 1) => .next (passCycles s (n + 1))

/-- In a replay a token that no record places ends PARK or NAP as it did when it had come before (R93, R423). -/
def recordedToken (s : State) : State :=
  if replaying s && s.t.a.token then resumeToken (modA s fun a => { a with token := false }) else s

/-- A thread by its state (R87), no pass in flight. -/
def byState (s : State) : Out :=
  if uiBoundary s && !replaying s then exec (.userInterrupt s.cur) s
  else match s.t.run with
  | .halted => .next s
  | .running => after s (stallWait s) goesOn
  | .timed => after s (some (s.t.parkLeft.getD 0).toNat) (exec (.parkCExpiry s.cur))
  | .parked => .next (recordedToken s)
  | .napping => .next (recordedToken s)

/-- The event that a record places at this boundary (R423), once it may take place; a record of no type is malformed (R424). -/
def replayEvent (r : JRec) (s : State) : Out :=
  let data := r.dw.getD 3 0
  let trap (s : State) (cause : Nat) (fatal8 : Bool) : State :=
    match s.t.deferred with
    | some tr => if tr.cause = cause then takeDeferred s tr else takeTrap s (plainTrap cause data) s.t.a.pc false fatal8 false
    | none => takeTrap s (plainTrap cause data) s.t.a.pc false fatal8 false
  if !eventReady s r then .next s
  else match r.eventType with
    | 1 => exec (.userInterrupt s.cur) s
    | 2 => exec (.preEmption s.cur) s
    | 3 => .next (injected s 3 fun s => resumeToken (modA s fun a => { a with token := false }))
    | 4 => .next (injected s 4 fun s => trap (stopPass s none) 15 false)
    | 6 => .next (injected s 6 fun s => trap s 8 true)
    | _ => .next (diverge s 5 s.cur s.t.chunk.before r.off)

/-- The order at a boundary of a thread whose core's clock runs: a chunk of a completed pass that is to run again, the closing of its chunk, the
commit that comes before everything, a reservation, a replay's event, a trap of this boundary where a pre-emption meets it, a pre-emption, a pass, a
kept trap, and what its state says (R159, R273, R287, R391). R242 does not say how its trap and a pre-emption stand: the trap comes first, its
resume address this boundary (DESIGN CHOICE, log entry 132). -/
def boundary (s : State) : Out :=
  if s.t.run = .halted then .next s
  else if s.t.dropped then .next (settleSealed s)
  else if s.t.pass.isNone && closesHere s then .next (boundaryClose s)
  else if ownHit s then .next (commitClosed s)
  else if mustWait s then .next (reserve s)
  else match eventDue s with
    | some r => replayEvent r s
    | none =>
      let traps := preBoundary s && !replaying s && trapsNow s
      if preBoundary s && !replaying s && !traps then exec (.preEmption s.cur) s
      else match s.t.pass with
        | some p => after s (passWait s p) fun s => .next (passStep s)
        | none => match s.t.deferred with
          | some tr => if s.t.run == .running && keptTrap s then .next (takeDeferred s tr) else byState s
          | none => if traps then after s (stallWait s) goesOn else byState s

/-- A core at which neither thread has anything left to do waits: its clock takes up its die's time when something comes (R133; log
entry 3). -/
def noteWait (core : Nat) (s : State) : State := putCore s core { coreAt s core with waits := (coreWait s core).isNone }

/-- What follows a next state. -/
def andThen (o : Out) (f : State → State) : Out :=
  match o with
  | .next t => .next (f t)
  | .fault x => .fault x
  | .refused r => .refused r

/-- Is what a core has waited for the release of a BARW, whose time is known (R338, R340)? -/
def released (s : State) : Bool :=
  !replaying s && (if isSteward s.cur then [s.cur] else [s.cur, siblingOf s.cur]).any fun i =>
    match (threadAt s i).stall with
    | .barw g k _ => barwOver (switchTo s i) g k
    | _ => false

/-- The thread that moves takes its turn: a relock of its core ends first (R134), a core that is gated or stopped waits (R99, R429), a step that
has waited or is recorded begins (R134, R423), and the clock of a core that has waited takes up its die's time (R133). -/
def turn (s : State) : Out :=
  let core := coreOf s.cur
  if s.c.relock.isSome then exec (.relockEnd core) s
  else if s.c.gated || s.c.off then .next s
  else
    let s1 := heldStep (recordedStep s core) core
    if s1.c.relock.isSome then .next s1
    else
      let s2 := if s1.c.waits && !released s1 then catchUp s1 else s1
      if s2.c.gated then .next s2 else andThen (boundary s2) (noteWait core)

/-- The turn of thread tid, or of its sibling that has the slot (R89). -/
def turnOf (s : State) (tid : Nat) : Out := turn (switchTo s (slotFor s tid))

/-- A reservation ends (R287): with the commit of its chunk, or, where that has to wait for others, without; log entry 46. -/
def quitHold (s : State) (agent : Nat) : State :=
  let t := endHold s agent
  if t.outOfTurn then pauseHold s agent else t

/-- An agent that holds slices moves: its thread, its pass or its engine operation; where it waits for something else its reservation ends
(R287, R288; log entry 46). -/
def holderStep (s : State) (agent : Nat) : Out :=
  let tid := if agent < 1048576 then agent else if agent < 2097152 then agent - 1048576 else (agent - 2097152) / 16
  let c := coreAt s (coreOf tid)
  if agent < 2097152 then
    (if c.gated || c.off || (waitAt s tid).isNone || (decide (1048576 ≤ agent) && (threadAt s tid).pass.isNone)
     then .next (quitHold s agent)
     else match turnOf s tid with
       | .next t => if t.outOfTurn then turn (switchTo s tid) else .next t
       | x => x)
  else if (s.engines.any fun e => e.tid == tid && e.k == agent % 16 && e.go && e.result.isNone) && !s.stopped
  then .next (onThread s tid fun s => stepEngine s (agent % 16)) else .next (quitHold s agent)

/-- The thread of an agent (R420); 1048576 for a port. -/
def agentThread (agent : Nat) : Nat :=
  if agent < 1048576 then agent else if agent < 2097152 then agent - 1048576
  else if agent < 3145728 then (agent - 2097152) / 16 else if agent < 4194304 then 1048576 else agent - 4194304

/-- Does a record ask for something before the end of a replay (R425)? Not what stands for a chunk that was not granted any more as the journal filled
up: its values, and the events that follow it. -/
def stillDue (s : State) (r : JRec) : Bool :=
  r.kind == 2 || r.kind == 4 || r.kind == 0 ||
  (r.kind == 5 && decide ((r.num + 1).toNat ≤ uncommitted (threadAt s r.agent)))

/-- The END record of a replay has been reached (R425). -/
def replayEnds (s : State) : Bool := replaying s && (s.journal.any fun r => r.kind == 8) && s.journal.all fun r => !stillDue s r

/-- Has a thread come to what an ARRIVAL record answers? A response finds its request, an acknowledgement its write. -/
def awaited (s : State) (r : JRec) : Bool :=
  let w := r.dw.getD 3 0
  let t := threadAt s (fld w 8 16)
  match fld w 0 8 with
  | 4 => (remoteFor t).isSome
  | 5 => t.sent.any (sentTo (r.dw.getD 4 0))
  | _ => true

/-- What an ARRIVAL record holds is performed (R423; log entry 19). -/
def performPacket (r : JRec) (s : State) : State :=
  let w := r.dw.getD 3 0
  let a := fld w 8 16
  let b := fld w 24 8
  let c := fld w 32 8
  let d := fld w 40 16
  let x (i : Nat) : Word := r.dw.getD (4 + i) 0
  match fld w 0 8 with
  | 0 => performRld a b (x 0) c s
  | 1 => performRst a b (x 0) c (x 1) s
  | 2 => performRamo a b (x 0) c (x 1) (x 2) s
  | 3 => performRred a b (x 0) c ((x 1).setWidth 32) (BitVec.ofNat 16 d) (wordsHalves (r.dw.drop 6)) s
  | 4 => performResponse a b (x 0) s
  | 5 => performAck a b (x 0) s
  | 6 => performItem a b d (x 0) (x 1) s
  | 8 => performReturn (x 0).toNat (b == 1) s
  | 9 => performAbort a (x 0).toNat s
  | 10 => performNotice a b s
  | 11 => performHost (x 0).toNat ((wordsBytes (r.dw.drop 5)).take c) s
  | 12 => performCxl (b == 1) (x 0).toNat ((wordsBytes (r.dw.drop 5)).take c) c s
  | 13 => hostDoorbell b none (x 0) s
  | 14 => hostDoorbell b (some (x 0)) (x 1) s
  | _ => diverge s 5 r.agent r.num.toNat r.off

/-- An ARRIVAL is performed at its place: its records are used up, and its port's agent has the recorded chunk number (R270, R423). -/
def performRecord (r : JRec) (s : State) : State :=
  let port := fld (r.dw.getD 2 0) 0 8
  let s1 := (recordsOf s 4 r.agent r.num.toNat).foldl consume s
  performNext { s1 with ports := spPut s1.ports port r.num.toNat } port (performPacket r)

/-- The arrival that a replay performs next: one that stands next in the sequence of each of its slices (R421, R423), and that commits no chunk out of
its turn. -/
def dueArrival (s : State) : Option State :=
  if !replaying s then none
  else
    let due := s.journal.filter fun r =>
      r.kind == 4 && ((recordsOf s 4 r.agent r.num.toNat).all fun x => nextGrant s x.slice == some x) && awaited s r
    due.findSome? fun r => let t := performRecord r s; if t.outOfTurn then none else some t

/-- Does something due act in a held replay: a dump that firmware asks for, or a reset of the module (R425, R426)? -/
def actsHeld (d : Due) : Bool :=
  match d with
  | .event (.dump _) => true
  | .event .moduleReset => true
  | _ => false

/-- Is a thread in the middle of a chunk of its own, or of its pass (R425)? -/
def midChunk (s : State) (tid : Nat) : Bool :=
  let t := threadAt s tid
  if t.pass.isSome then t.sealed.isSome else !t.chunk.idle

/-- A thread in the middle of a chunk goes on, where nothing commits with that (R425). -/
def heldTry (s : State) (tid : Nat) : Option State :=
  if !midChunk s tid || (waitAt s tid).isNone then none
  else match turn (switchTo s tid) with
    | .next t => if t.grantLog.length = s.grantLog.length ∧ t.outOfTurn = false ∧
        (threadAt t tid).chkstat.toList.getD 0 0 = (threadAt s tid).chkstat.toList.getD 0 0 then some t else none
    | _ => none

/-- Does something due act on the module, its units or its host link alone, no core taking part (R426)? -/
def Due.ofModule (d : Due) : Bool :=
  match d with
  | .event i => (match i with
    | .moduleReset => true
    | .measExtend _ => true
    | .temperatureReading _ _ => true
    | .powerMeasurement _ => true
    | .tcritTimeout _ => true
    | .vminTimeout _ => true
    | .processMonitor _ _ => true
    | .rldRequest _ _ _ _ => true
    | .rstPacket _ _ _ _ _ => true
    | .ramoRequest _ _ _ _ _ _ => true
    | .rredPacket _ _ _ _ _ _ _ => true
    | .remoteItem _ _ _ _ _ => true
    | .abortNotice _ _ => true
    | .resetNotice _ _ => true
    | .hostWrite _ _ _ => true
    | .cxlMemAccess _ _ _ => true
    | .dbhi _ _ => true
    | .functionLevelReset _ => true
    | .vfreset _ => true
    | .preempt _ _ => true
    | .vfPreempt _ _ => true
    | .sramsize _ _ => true
    | .flim _ _ => true
    | .ownerTableWrite _ _ => true
    | .registerWrite _ _ => true
    | .reservationReturn _ _ => true
    | .entropyHealthChange _ _ => true
    | _ => false)
  | .upset (.laneWait _ _ _) => false
  | .upset (.runAhead _ _ _) => false
  | .upset _ => true
  | _ => false

/-- A module whose cores are held in reset (R426): what acts on the module alone goes on, a reset among it, and no core moves; where nothing of it is due
the module stops. -/
def heldInReset (s : State) : Out :=
  match s.agenda.find? Due.ofModule with
  | none => .fault .heldInReset
  | some d => match d with
    | .event i => exec i { s with agenda := s.agenda.erase d }
    | .upset u => .next (upset u { s with agenda := s.agenda.erase d })
    | _ => .fault .heldInReset

/-- A held replay (R425): a dump that firmware asks for is made, a reset of the module acts (R426), and a thread or a pass in the middle of a chunk goes on to its boundary, where
nothing commits any more. -/
def heldMove (s : State) : Out :=
  match s.agenda.find? actsHeld with
  | some (.event i) => exec i { s with agenda := s.agenda.erase (.event i) }
  | _ => .next (((liveTids s).findSome? (heldTry s)).getD s)

/-- A thread whose core's clock runs and whose closed chunk's commit would squash its open one: that commit comes before an event (R283; log entry
122). -/
def firstHit (s : State) : Option Nat := (liveTids s).find? fun i =>
  (coreAt s (coreOf i)).relock.isNone && !(coreAt s (coreOf i)).off && ownHit (switchTo s i)

/-- Something due on the agenda acts, the commit of a chunk that hits its own thread's open one before it. -/
def dueActs (s : State) (l : List Due) (f : State → Out) : Out :=
  match firstHit s with
  | some i => .next (onThread s i commitClosed)
  | none => f { s with agenda := l }

/-- The core for which an event brings something from elsewhere. -/
def arrivesAt (i : Instr) : Option Nat :=
  match i with
  | .wakeDelivery _ dst => some (coreOf dst)
  | .remoteResponse tid _ _ => some (coreOf tid)
  | .remoteAcknowledgement tid _ _ => some (coreOf tid)
  | .itemAcceptance tid _ => some (coreOf tid)
  | _ => none

/-- The thread whose core must first come to the time at which an event reaches it (R133, R137): one that goes on and is behind its die's time. -/
def behind (s : State) (i : Instr) : Option Nat :=
  match arrivesAt i with
  | none => none
  | some core =>
    let c := coreAt s core
    if core < 176 && !c.waits && !c.gated && !c.off && c.relock.isNone && decide (c.clock < dieTime s (dieOf core)) && (coreWait s core).isSome
    then some (if core < 160 then 2 * core else core + 160) else none

/-- What is due on the agenda, or the turn of a thread. -/
def ownMove (s : State) : Out :=
  match s.agenda with
  | .upset u :: l => dueActs s l fun s => .next (upset u s)
  | .event i :: l =>
    if !isEvent i then .next { s with agenda := l }
    else match behind s i with
      | some tid => turnOf s tid
      | none => dueActs s l (exec i)
  | .own m i :: l => dueActs s l fun u => andThen (exec i u) (ownReturn m u)
  | .act tid i :: l => dueActs s l fun s => andThen (exec i (switchTo s tid)) fun t => switchTo t s.cur
  | .run tid :: l => turnOf { s with agenda := l } tid
  | [] => turnOf s (nextLive s)

/-- The table entries whose A or D bits a step has set are broadcast, so that no chunk that has read them stays (R349). -/
def broadcastMarked (s : State) : State :=
  if s.marked.isEmpty then s else { broadcast s 16777215 (s.marked.map fun m => m.1 / 64) [] with marked := [] }

/-- Has an uncommitted chunk of a thread, of its passes or of its engine operations an item in a line of a list? -/
def touches (s : State) (tid : Nat) (lines : List Nat) : Bool :=
  let t := threadAt s tid
  let hit (c : Chunk) : Bool := trulyHits lines [] c
  hit t.chunk || t.closed.any hit || t.sealed.any hit || (t.redo.bind Redo.chunk).any hit ||
  s.engines.any fun e => e.tid == tid && e.chunk.any hit

/-- A move has set A or D bits (R349): the entry's write takes its slice, so that it waits for a reservation of another thread, and it precedes the
access's chunk. Where the mover's own chunks had met the entry before, or have committed with the move, the bits are set first, and the move comes
again; a reserving thread's chunk, which cannot be squashed, commits before that. None where the move must wait. -/
def settleMarks (s t : State) : Option State :=
  if t.marked.isEmpty then some t
  else
    let lines := t.marked.map fun m => m.1 / 64
    if s.held.any fun h => (lines.map sliceOf).contains h.1 && agentThread h.2 != t.cur then none
    else if touches s t.cur lines || s.grantLog.length != t.grantLog.length then
      (match s.held.find? fun h => agentThread h.2 == t.cur with
       | some h => if touches s t.cur lines then some (endHold s h.2) else some (broadcastMarked { pokeAll s t.marked with marked := t.marked })
       | none => some (broadcastMarked { pokeAll s t.marked with marked := t.marked }))
    else some (broadcastMarked t)

/-- A move takes place, unless it would grant a chunk out of its turn or must wait for a slice, or in a replay would commit one that has not come to its
recorded extent: that divergence is then all that it does (R424, R425). -/
def takesPlace (s t : State) : Option State :=
  if t.outOfTurn then t.unreached.map fun x => diverge s 4 x.1 x.2.1 x.2.2 else settleMarks s t

/-- A thread spends a core cycle in which it can do nothing, or the last chunk of its completed pass commits, which it waits for. -/
def idleCycle (s : State) : State :=
  if s.c.gated || s.c.off || s.c.relock.isSome then s
  else (if s.t.redo.isSome then takesPlace s (settleSealed s) else none).getD (cyclesPass s 1)

/-- A thread cannot use its slot: its sibling takes it where that is ready (R89), else the cycle passes. -/
def spareSlot (s : State) : State :=
  if isSteward s.cur || waitAt s (siblingOf s.cur) != some 0 then idleCycle s
  else match turn (switchTo s (siblingOf s.cur)) with
    | .next t => (takesPlace s t).getD (idleCycle s)
    | _ => idleCycle s

/-- The holder of a reservation moves (R287), or its reservation ends. -/
def holderTurn (s : State) (agent : Nat) : Out :=
  match holderStep s agent with
  | .next t => .next ((takesPlace s t).getD (quitHold s agent))
  | x => x

/-- A move that would have granted a chunk against a reservation, or out of its turn in a replay, does not take place: the holder moves
instead; or an event comes again later, after a thread's move; or the thread waits (R281, R287, R423). -/
def waitTurn (s : State) : Out :=
  match s.held with
  | (_, agent) :: _ => holderTurn s agent
  | [] => match s.agenda with
    | .run tid :: l => .next (spareSlot (switchTo { s with agenda := l } (slotFor s tid)))
    | x :: l =>
      let s1 := { s with agenda := l ++ [x] }
      let idle := spareSlot (switchTo s1 (slotFor s1 (nextLive s1)))
      (match turnOf s1 (nextLive s1) with
       | .next t => .next ((takesPlace s1 t).getD idle)
       | x => x)
    | [] => .next (spareSlot (switchTo s (slotFor s (nextLive s))))

/-- What moves next, with the end of a replay, its malformed records and its arrivals (R423 to R425). -/
def nextMove (s : State) : Out :=
  if replayHeld s then heldMove s
  else if replayEnds s then .next (setJState s 2)
  else if replaying s && (s.journal.head?.map fun r => r.kind == 0).getD false then
    .next (diverge s 5 0 0 ((s.journal.head?.map JRec.off).getD 0))
  else match dueArrival s with
    | some t => .next (broadcastMarked t)
    | none => match ownMove s with
      | .next t => (match takesPlace s t with
        | some u => .next u
        | none => waitTurn s)
      | x => x

/-- A qword of committed memory for the fetch path. -/
def pokeWord (s : State) (k v : Nat) : State := pokeAll s (keyed k (leBytes 8 v))

/-- Map the page of the program counter for fetching, at physical 0x100000, through tables at the root and at 0x1000, 0x2000 and
0x3000 (R345, R346). -/
def mapFetch (s : State) : State :=
  let va := s.t.a.pc
  let u := if s.t.lvl = .u then 32 else 0
  let s1 := pokeWord s ((who s).root + 8 * (va / 8796093022208 % 512)) 0x1001
  let s2 := pokeWord s1 (0x1000 + 8 * (va / 17179869184 % 512)) 0x2001
  let s3 := pokeWord s2 (0x2000 + 8 * (va / 33554432 % 512)) 0x3001
  pokeWord s3 (0x3000 + 8 * (va / 65536 % 512)) (0x100057 + u)

/-- Is the program counter's page mapped for fetching from memory? -/
def fetchMapped (s : State) : Bool :=
  match lookup s (who s) .fetch (wd s.t.a.pc) with
  | .ok (k, _) => !isDevice k
  | .error _ => false

/-- Put the bytes of a word where the next instruction is fetched. -/
def placeWord (s : State) (w : Nat) : State :=
  match lookup s (who s) .fetch (wd s.t.a.pc) with
  | .error _ => s
  | .ok (k, _) =>
    let s1 := pokeAll s (keyed k (leBytes 4 w))
    { s1 with c := { s1.c with icache := s1.c.icache.filter fun e => e.1 != k / 8 } }

/-- The thread that moves is at a boundary with nothing before its next instruction, and its core's slot is its own. -/
def readyToIssue (s : State) : State :=
  { modT s fun t =>
      { t with run := .running, stall := .none, pass := none, deferred := none, preS := false, preH := false, prepared := true,
               begun := some t.a.pc, late := [], wanted := [],
               chunk := if closesHere s || ownHit s then Chunk.empty t.a.pc t.chunk.num else t.chunk } with
    agenda := [.run s.cur], holdReset := false, held := [], outOfTurn := false, jmode := 0,
    c := { s.c with relock := none, gated := false, off := false, waits := false, stepHeld := none,
                    lastIssue := some (1 - s.cur % 2) } }

end Sys2Proof.Machine
end

