-- ==== Sys2Proof/Machine/Step.lean ====
section
/-! DEFINITION. Machine/Step.lean: one step of the module, and the placing of an instruction where the next step fetches it. -/

namespace Sys2Proof.Machine

open Sys2Proof

/-- One step: of a module whose cores are held in reset what needs no core goes on (R426); else what is due next moves. -/
def step (s : State) : Host.Outcome State Fault Refusal :=
  if s.holdReset then heldInReset s else nextMove s

/-- s with an instruction stored where step fetches its next one: the low nbits of w, little-endian; where the program counter's
page is not mapped, it is mapped first. -/
def State.withFetchWord (s : State) (nbits w : Nat) : State :=
  let s1 := readyToIssue s
  placeWord (if fetchMapped s1 then s1 else mapFetch s1) (w % 2 ^ nbits)

end Sys2Proof.Machine
end

