-- ==== Sys2Proof/Safety.lean ====
section
/-! DEFINITION. Safety.lean: what counts as a safe run, and the vocabulary of the statements: what answers a next state, what a state
keeps, and what an access reaches. -/

namespace Sys2Proof.Machine

open Sys2Proof

/-- Memory is in its canonical form. -/
def State.canonical (s : State) : Prop := Memory.wf s.mem = true

/-- A sparse list whose keys rise strictly. -/
def Rising {α : Type} : List (Nat × α) → Prop
  | [] => True
  | (a, _) :: t => (∀ e ∈ t, a < e.1) ∧ Rising t

/-- The form of the model's lists: memory is canonical, and the keys of the sparse lists of threads, cores, device registers, group records
and tile rows rise. -/
structure Sorted (s : State) : Prop where
  /-- Memory. -/
  memory : s.canonical
  /-- Threads. -/
  threads : Rising s.threads
  /-- Cores. -/
  cores : Rising s.cores
  /-- Device registers. -/
  dev : Rising s.dev
  /-- Group records. -/
  groups : Rising s.groups
  /-- The tile rows of the core whose thread moves. -/
  tiles : Rising s.c.tiles
  /-- The tile rows of the others. -/
  others : ∀ e ∈ s.cores, Rising e.2.tiles

/-- A step has a next state: the module neither stops nor meets an instruction without a meaning. -/
def Proceeds (s : State) : Prop := ∃ t, step s = .next t

/-- A run is safe for n steps: each of them has a next state. -/
def SafeFor : Nat → State → Prop
  | 0, _ => True
  | n + 1, s => ∃ t, step s = .next t ∧ SafeFor n t

/-- exec answers a next state, and P holds of it. -/
def Answers (i : Instr) (s : State) (P : State → Prop) : Prop := ∃ t, exec i s = .next t ∧ P t

/-- exec answers a next state: thread tid acts, from the state in which it is the one that moves to a state of which P holds,
and then the turn goes back. -/
def ActsAs (tid : Nat) (i : Instr) (s : State) (P : State → State → Prop) : Prop :=
  ∃ t, exec i s = .next (switchTo t s.cur) ∧ P (switchTo s tid) t

/-- The parts of a state that a statement may except from its frame. -/
inductive Part where
  /-- x0 to x31. -/
  | x
  /-- The program counter. -/
  | pc
  /-- The count of the open chunk's control instructions. -/
  | count
  /-- FSTAT. -/
  | fstat
  /-- v0 to v31, m1 to m7, the pending graph that they name, and their history in the open chunk. -/
  | vec
  /-- VL. -/
  | vl
  /-- The base list of the strip. -/
  | bases
  /-- The core's lane allocation, the tile rows that it moves with the errors that they hold, and what the open chunk keeps of both. -/
  | share
  /-- q0 to q7. -/
  | scale
  /-- The rows and scale registers that hold an error, and those of which the open chunk has cleared one. -/
  | bad
  /-- Tile rows and their history in the thread's chunks. -/
  | tiles
  /-- The core's two weight slots, their history and their read granules in the chunk, and the agenda. -/
  | weights
  /-- Steps in the matrix array and the agenda. -/
  | array
  /-- EVF and the status words of the event flags. -/
  | events
  /-- Messages that the open chunk holds. -/
  | out
  /-- Engine operations. -/
  | engines
  /-- The wake token. -/
  | token
  /-- RUNNING, PARKED and so on, and what they keep. -/
  | run
  /-- What the thread is stalled on. -/
  | stall
  /-- The trace ring. -/
  | trace
  /-- Checkpoints and the address at which the open chunk begins. -/
  | ckpt
  /-- CHKLIM. -/
  | chklim
  /-- What a user interrupt saves: ACTIVE, UIPC and the shadow registers. -/
  | ui
  /-- The draw kept with the checkpoint and the number of draws. -/
  | draw
  /-- The pass in flight. -/
  | pass
  /-- Panels and the task unit's counts of them. -/
  | panels
  /-- The agenda. -/
  | agenda
  /-- Group records and the thread's list of its groups. -/
  | groups
  /-- Item queues and packets that have left. -/
  | queues
  /-- SC, STE and a STRIP that waits. -/
  | strip
  /-- The reading core's code words. -/
  | code
  /-- Translations, accessed and dirty bits and what is to be broadcast of them, read and write items of the open chunk, and the count of free
  values. -/
  | access
  /-- The counter of the model's free values. -/
  | free
  /-- Which chunks of the thread a fence has marked, and the fences after its completed pass. -/
  | fences
  deriving DecidableEq, Repr

/-- A core's part set to one fixed value. -/
def blankCore (f : Core → Core) (s : State) : State := { s with c := f s.c }

/-- Set a part to one fixed value: two states agree but for a part when they agree once it is erased. -/
def Part.erase (p : Part) (s : State) : State :=
  let r := Arch.reset 0
  match p with
  | .x => modA s fun a => { a with x := r.x }
  | .pc => modA s fun a => { a with pc := 0 }
  | .count => modT s fun t => { t with chunk := { t.chunk with count := 0 } }
  | .fstat => modA s fun a => { a with fstat := 0 }
  | .vec => modT (modA s fun a => { a with v := r.v, m := r.m, nodes := [], leaves := [], nextId := 0, inner := [], freeing := none })
      fun t => { t with chunk := { t.chunk with hist := [] } }
  | .vl => modA s fun a => { a with vlLen := 0, vlGrant := 0 }
  | .bases => modA s fun a => { a with bases := [] }
  | .share => blankCore (fun c => { c with lc := Vector.replicate 4 0, lcNext := none, tr0 := 0, tr1 := 0, tiles := [], bad := [] })
      (modT s fun t => { t with chunk := { t.chunk with share := none, undo := [], given := [], mended := [] } })
  | .scale => modA s fun a => { a with q := r.q }
  | .bad => blankCore (fun c => { c with bad := [] }) (modT s fun t => { t with chunk := { t.chunk with mended := [] } })
  | .tiles => blankCore (fun c => { c with tiles := [] }) (modT s fun t =>
      { t with chunk := { t.chunk with undo := [], given := [] }, closed := t.closed.map fun c => { c with undo := [], given := [] } })
  | .weights => { blankCore (fun c => { c with slot0 := Slot.reset, slot1 := Slot.reset }) (modT s fun t =>
      { t with chunk := { t.chunk with slots := [], readG := [] } }) with agenda := [] }
  | .array => { blankCore (fun c => { c with mat := [] }) s with agenda := [] }
  | .events => modA s fun a => { a with done := 0, efault := 0, evs := r.evs }
  | .out => modT s fun t => { t with chunk := { t.chunk with out := [] } }
  | .engines => { s with engines := [] }
  | .token => modA s fun a => { a with token := false }
  | .run => modT s fun t => { t with run := .running, parkReg := 0, parkLeft := none, parkKept := [], napDone := 0 }
  | .stall => modT s fun t => { t with stall := .none }
  | .trace => blankCore (fun c => { c with ring := [], ringNext := 0, ringLaps := 0 }) s
  | .ckpt => modT s fun t => { t with ckpt := r, ckptOpen := r, chunk := { t.chunk with pc := 0 } }
  | .ui => modA s fun a => { a with uiactive := false, uipc := 0, shadow := r.shadow }
  | .chklim => modA s fun a => { a with chkLim := 0, chkEff := 0, chkNext := none }
  | .draw => modT { s with draws := 0 } fun t => { t with draw := none }
  | .pass => modT s fun t => { t with pass := none }
  | .panels => { s with panels := [], nextSeq := 0, nextOrder := 0 }
  | .agenda => { s with agenda := [] }
  | .groups => modT { s with groups := [] } fun t => { t with groups := [] }
  | .queues => { s with items := [], outbound := [] }
  | .strip => modA s fun a => { a with sc := 0, ste := 0, strip := [] }
  | .code => blankCore (fun c => { c with icache := [] }) s
  | .access => modT { s with tlb := [], mem := [], free := 0, marked := [] } fun t =>
      { t with chunk := { t.chunk with readL := [], readG := [], writeL := [], writeG := [], writes := [], lines := [], used := [] } }
  | .free => { s with free := 0 }
  | .fences => modT s fun t =>
      { t with chunk := { t.chunk with fenced := false }, closed := t.closed.map fun c => { c with fenced := false },
               redo := t.redo.map fun r => { r with vs := false, vv := false } }

/-- Erase several parts. -/
def erased (ps : List Part) (s : State) : State := ps.foldl (fun s p => p.erase s) s

/-- Everything but some parts is as it was; and the thread reads every byte of memory as it did. -/
structure Keeps (ps : List Part) (s t : State) : Prop where
  /-- Every other part of the state. -/
  rest : erased ps t = erased ps s
  /-- Every byte as the thread that moves reads it. -/
  bytes : ∀ k, viewByte t k = viewByte s k

/-- What an instruction of the register file does: X[D] takes a value (a write to x0 is discarded), the next instruction follows,
and all else is as it was but for the count of the chunk's instructions. -/
structure WroteReg (s t : State) (d : Reg) (v : Word) : Prop where
  /-- The destination. -/
  result : rd t d = if d = 0 then 0 else v
  /-- Every other register. -/
  others : ∀ r, r ≠ d → rd t r = rd s r
  /-- The next instruction. -/
  next : t.t.a.pc = (s.t.a.pc + 4) % 2 ^ 64
  /-- Every CSR. -/
  csrs : ∀ n, csrValue t n = csrValue s n
  /-- All other state and every byte of memory. -/
  frame : Keeps [.x, .pc, .count] s t

/-- Control passes to an address: no register, no CSR and no byte of memory changes; a BRANCH record may enter the trace ring. -/
structure Jumped (s t : State) (p : Nat) : Prop where
  /-- The next instruction. -/
  next : t.t.a.pc = p % 2 ^ 64
  /-- Every register. -/
  regs : ∀ r, rd t r = rd s r
  /-- All other state and every byte of memory. -/
  frame : Keeps [.pc, .count, .trace] s t

/-- The same, with a return address in X[D]. -/
structure Linked (s t : State) (d : Reg) (p : Nat) : Prop where
  /-- The next instruction. -/
  next : t.t.a.pc = p % 2 ^ 64
  /-- The return address. -/
  link : rd t d = if d = 0 then 0 else wd (s.t.a.pc + 4)
  /-- Every other register. -/
  others : ∀ r, r ≠ d → rd t r = rd s r
  /-- All other state and every byte of memory. -/
  frame : Keeps [.x, .pc, .count, .trace] s t

/-- The next instruction follows. -/
def follows (s t : State) : Prop := t.t.a.pc = (s.t.a.pc + 4) % 2 ^ 64

/-- X[D] takes a value, which x0 discards, and every other register is as it was. -/
def puts (s t : State) (d : Reg) (v : Word) : Prop := rd t d = (if d = 0 then 0 else v) ∧ ∀ r, r ≠ d → rd t r = rd s r

/-- Every register is as it was. -/
def sameRegs (s t : State) : Prop := ∀ r, rd t r = rd s r

/-- Every CSR is as it was. -/
def sameCsrs (s t : State) : Prop := ∀ n, csrValue t n = csrValue s n

/-- No journal is kept and none is replayed (R419). -/
def quiet (s : State) : Prop := s.jmode = 0

/-- No uncommitted chunk of the thread holds a write of a device register (R378): what its next instruction asks of a unit needs no
commit first. -/
def noDevWrites (s : State) : Prop := s.t.chunk.dev = [] ∧ ∀ c, s.t.closed = some c → c.dev = []

/-- The clock of a thread's core runs, no relock is in progress, and it is not at rest: what arrives for it acts at once (R99, R134, R135, R429). -/
def clockRuns (s : State) (tid : Nat) : Prop :=
  (coreAt s (coreOf tid)).relock = none ∧ (coreAt s (coreOf tid)).off = false ∧ (coreAt s (coreOf tid)).waits = false

/-- A core at which what arrives acts at once: its clock runs (R134, R135, R429), and it is neither at rest nor gated (R99). -/
def coreUp (s : State) (core : Nat) : Prop :=
  (coreAt s core).relock = none ∧ (coreAt s core).off = false ∧ (coreAt s core).waits = false ∧ (coreAt s core).gated = false

/-- A compute core's thread (R2). -/
def onComputeCore (s : State) : Prop := isSteward s.cur = false

/-- The state in which a closing instruction acts: the chunk has closed after it and has committed (R272). -/
def closedAfter (s : State) : State := commitOpen (countOne s)

/-- The state in which a CTXSAVE saves: everything of the thread that is in flight is over (R265, R398). -/
def saveState (s : State) : State := drainEngines (drainMatrix (settleSealed (commitOpen s)))

/-- What a CTXSAVE writes, and whether every line of it can be stored (R398). -/
def saveImage (s : State) : State × Except Flt Unit := let v := saveState s
  storeSegs (keepSave v) v.t.ctxbase (imageSegs v (nextSave v) (savedPc v).1 (savedPc v).2 false)

/-- A CTXSAVE executes normally (R398): at S or H, its image meets no stream of a pending register, and no store of it faults. -/
def canSave (s : State) : Bool :=
  s.t.lvl != .u && (overlapped (saveState s) (saveState s).t.ctxbase (imageSize (saveState s))).isEmpty && (saveImage s).2.isOk

/-- The image that a CTXLOAD reads at an address (R399); none where a read faults. -/
def imageAt (s : State) (va : Word) : Option ImageData :=
  match (readImage (commitOpen s) va).2 with
  | .ok d => some d
  | .error _ => none

/-- The state in which a CTXLOAD has read its image, and in which everything of the thread that is in flight is over (R265, R399). -/
def loadState (s : State) (va : Word) : State :=
  drainEngines (drainMatrix (settleSealed (commitOpen (countOne (readImage (commitOpen s) va).1))))

/-- A CTXLOAD executes normally (R399): at S or H, its address is aligned, no read of the image faults, and the image is loadable. -/
def canLoad (s : State) (va : Word) : Bool :=
  s.t.lvl != .u && va.toNat % 4096 == 0 && (imageAt s va).any (loadable (loadState s va))

/-- An address leads to a place of memory that the thread may reach by a kind of access, no other agent's reservation is in the
way, and the entry of the page table that a walk marks is not an entry of the frame owner table. -/
structure Reaches (s : State) (kind : Kind) (va : Word) (k : Nat) (l : Option Leaf3) : Prop where
  /-- The translation and its permission. -/
  found : lookup s (who s) kind va = .ok (k, l)
  /-- A byte of memory, not a register. -/
  memory : isDevice k = false
  /-- Not a store that a hypervisor watches (R348). -/
  plain : tblStore s (who s) kind k = false
  /-- No reservation is held (R287). -/
  free : s.held = []
  /-- No fence holds the access back until the last chunk of the thread's pass has committed (R301). -/
  unfenced : ∀ r, s.t.redo = some r → r.vs = false
  /-- Memory has its canonical form. -/
  form : s.canonical
  /-- The page-table entry decrypts, and lies outside the FOT. -/
  sound : ∀ e p, l = some e → e.pos = some p → lineFresh s p = true ∧
    (p < fld s.t.fotbase 16 34 * 65536 ∨ fld s.t.fotbase 16 34 * 65536 + 8 * 56624448 ≤ p)

/-- The FSTAT access of an instruction waits for the thread's completed pass, as a lane-cycle counter's does (R83, R407). -/
def waitsForPass (n : Nat) : Bool := n == 9 || (decide (0x60 ≤ n) && decide (n < 0x80))

/-- The byte of the page-table entry in which an access sets the accessed and dirty bits (R349). -/
def marks (l : Option Leaf3) (p : Nat) : Prop := ∃ e, l = some e ∧ e.pos = some p

/-- The state once an access has been translated: accessed and dirty bits set, the translation cached. -/
def walked (s : State) (kind : Kind) (va : Word) : State := (translate s (who s) kind va).1

/-- A load has delivered a value: no byte changes but the one in which the walk marks its entry. -/
structure Loaded (s t : State) (d : Reg) (v : Word) (l : Option Leaf3) : Prop where
  /-- The destination, and every other register. -/
  result : puts s t d v
  /-- The next instruction. -/
  next : follows s t
  /-- Every byte of memory. -/
  bytes : ∀ p, ¬ marks l p → viewByte t p = viewByte s p
  /-- Every CSR. -/
  csrs : sameCsrs s t
  /-- All other state. -/
  rest : erased [.x, .pc, .count, .access] t = erased [.x, .pc, .count, .access] s

/-- w bytes at k have taken the low bytes of a value; no other byte changes but the one in which the walk marks its entry, and no
register changes but those of a list. -/
structure Stored (s t : State) (k w v : Nat) (l : Option Leaf3) (ds : List Reg) : Prop where
  /-- The bytes stored. -/
  stored : ∀ i < w, viewByte t (k + i) = BitVec.ofNat 8 (v / 256 ^ i)
  /-- Every other byte. -/
  bytes : ∀ p, (p < k ∨ k + w ≤ p) → ¬ marks l p → viewByte t p = viewByte s p
  /-- Every other register. -/
  regs : ∀ r, r ∉ ds → rd t r = rd s r
  /-- The next instruction. -/
  next : follows s t
  /-- Every CSR but FSTAT. -/
  csrs : ∀ n, n ≠ 9 → csrValue t n = csrValue s n
  /-- All other state. -/
  rest : erased [.x, .pc, .count, .fstat, .access] t = erased [.x, .pc, .count, .fstat, .access] s

/-- A packet or the host has put n bytes at k, and no other byte of memory has changed. -/
structure PortWrote (s t : State) (k n v : Nat) : Prop where
  /-- The bytes written. -/
  stored : ∀ i < n, rawByte t (k + i) = BitVec.ofNat 8 (v / 256 ^ i)
  /-- Every other byte. -/
  bytes : ∀ p, (p < k ∨ k + n ≤ p) → rawByte t p = rawByte s p

/-- Slices grant (R406), no reservation is in the way (R287), no journal is kept or replayed (R419), and no key has been loaded anew
(R358): a chunk of a port agent commits at once. -/
def portsOpen (s : State) : Prop := s.stopped = false ∧ s.held = [] ∧ quiet s ∧ s.keyGen = [] ∧ s.canonical

/-- The stall of thread tid is over, and nothing else has changed. -/
def stallEnds (i : Instr) (tid : Nat) (s : State) : Prop :=
  ActsAs tid i s fun u t => t.t.stall = .none ∧ Keeps [.stall] u t

end Sys2Proof.Machine
end

