-- ==== Sys2Proof/Certificates/Slice0/Obligations.lean ====
section
/-! DEFINITION. Certificates/Slice0/Obligations.lean: the statements for the provers. Each says what rules of the spec say of an
instruction or of the module. -/

open Sys2Proof Sys2Proof.Machine

/-- R107: each operation of OP leaves its result in X[D] and changes nothing else. Operands are read before X[D] is written. -/
def Obligations.RegisterOperations : Prop :=
  ∀ (s : State) (d a b : Reg),
    let x := rd s a
    let y := rd s b
    let k := y.toNat % 64
    let writes (i : Instr) (v : Word) : Prop := Answers i s fun t => WroteReg s t d v
    writes (.add d a b) (BitVec.ofInt 64 (x.toInt + y.toInt)) ∧
    writes (.sub d a b) (BitVec.ofInt 64 (x.toInt - y.toInt)) ∧
    writes (.mul d a b) (BitVec.ofInt 64 (x.toInt * y.toInt)) ∧
    writes (.mulh d a b) (BitVec.ofInt 64 (x.toInt * y.toInt / 2 ^ 64)) ∧
    writes (.mulhu d a b) (BitVec.ofNat 64 (x.toNat * y.toNat / 2 ^ 64)) ∧
    writes (.and d a b) (x &&& y) ∧
    writes (.or d a b) (x ||| y) ∧
    writes (.xor d a b) (x ^^^ y) ∧
    writes (.andn d a b) (x &&& ~~~y) ∧
    writes (.orn d a b) (x ||| ~~~y) ∧
    writes (.sll d a b) (BitVec.ofNat 64 (x.toNat * 2 ^ k)) ∧
    writes (.srl d a b) (BitVec.ofNat 64 (x.toNat / 2 ^ k)) ∧
    writes (.sra d a b) (BitVec.ofInt 64 (x.toInt / 2 ^ k)) ∧
    writes (.ror d a b) (x.rotateRight k) ∧
    writes (.min d a b) (if x.toInt ≤ y.toInt then x else y) ∧
    writes (.max d a b) (if x.toInt ≤ y.toInt then y else x) ∧
    writes (.minu d a b) (if x.toNat ≤ y.toNat then x else y) ∧
    writes (.maxu d a b) (if x.toNat ≤ y.toNat then y else x) ∧
    writes (.slt d a b) (if x.toInt < y.toInt then 1 else 0) ∧
    writes (.sltu d a b) (if x.toNat < y.toNat then 1 else 0)

/-- R108: a zero divisor gives all ones and sets FSTAT.DZ; otherwise the truncated quotient, or the remainder that follows the
dividend, with no flag. -/
def Obligations.Divisions : Prop :=
  ∀ (s : State) (d a b : Reg),
    let x := rd s a
    let y := rd s b
    let zero (i : Instr) : Prop := y = 0 → Answers i s fun t =>
      rd t d = (if d = 0 then 0 else 0xFFFFFFFFFFFFFFFF) ∧ (∀ r, r ≠ d → rd t r = rd s r) ∧
      t.t.a.fstat = s.t.a.fstat ||| fDZ ∧ t.t.a.pc = (s.t.a.pc + 4) % 2 ^ 64 ∧ Keeps [.x, .pc, .count, .fstat] s t
    let gives (i : Instr) (v : Word) : Prop := zero i ∧ (y ≠ 0 → Answers i s fun t => WroteReg s t d v)
    gives (.div d a b) (BitVec.ofInt 64 (x.toInt.tdiv y.toInt)) ∧
    gives (.divu d a b) (BitVec.ofNat 64 (x.toNat / y.toNat)) ∧
    gives (.rem d a b) (BitVec.ofInt 64 (x.toInt - x.toInt.tdiv y.toInt * y.toInt)) ∧
    gives (.remu d a b) (BitVec.ofNat 64 (x.toNat - x.toNat / y.toNat * y.toNat))

/-- R109 to R112: the immediate operations. -/
def Obligations.ImmediateOperations : Prop :=
  ∀ (s : State) (d a : Reg),
    let x := rd s a
    let writes (i : Instr) (v : Word) : Prop := Answers i s fun t => WroteReg s t d v
    (∀ n : BitVec 16,
      writes (.addi d a n) (BitVec.ofInt 64 (x.toInt + n.toInt)) ∧
      writes (.andi d a n) (x &&& n.signExtend 64) ∧
      writes (.ori d a n) (x ||| n.signExtend 64) ∧
      writes (.xori d a n) (x ^^^ n.signExtend 64) ∧
      writes (.lui d n) (BitVec.ofInt 64 (n.toInt * 2 ^ 16)) ∧
      writes (.addpc d n) (BitVec.ofInt 64 (s.t.a.pc + n.toInt * 2 ^ 16))) ∧
    (∀ k : BitVec 6,
      writes (.slli d a k) (BitVec.ofNat 64 (x.toNat * 2 ^ k.toNat)) ∧
      writes (.srli d a k) (BitVec.ofNat 64 (x.toNat / 2 ^ k.toNat)) ∧
      writes (.srai d a k) (BitVec.ofInt 64 (x.toInt / 2 ^ k.toNat))) ∧
    ∀ n : BitVec 15,
      writes (.slti d a n) (if x.toInt < n.toInt then 1 else 0) ∧
      writes (.sltiu d a n) (if x.toNat < (n.signExtend 64).toNat then 1 else 0)

/-- R114: the bit operations, each by the bits of its result. INSH and CSEL read X[D]; LEA writes X[A]. -/
def Obligations.BitOperations : Prop :=
  ∀ (s : State) (d a b n : Reg),
    let x := rd s a
    let y := rd s b
    let writes (i : Instr) (P : Word → Prop) : Prop := ∃ v, P v ∧ Answers i s fun t => WroteReg s t d v
    writes (.clz d a) (fun v => v.toNat ≤ 64 ∧ (∀ j < 64, 64 ≤ j + v.toNat → x.getLsbD j = false) ∧
      (v.toNat < 64 → x.getLsbD (63 - v.toNat) = true)) ∧
    writes (.ctz d a) (fun v => v.toNat ≤ 64 ∧ (∀ j < v.toNat, x.getLsbD j = false) ∧
      (v.toNat < 64 → x.getLsbD v.toNat = true)) ∧
    writes (.popc d a) (fun v => v.toNat = ((List.range 64).filter fun j => x.getLsbD j).length) ∧
    writes (.sext d a n) (fun v => ∀ j < 64, v.getLsbD j = x.getLsbD (min j n.toNat)) ∧
    writes (.zext d a n) (fun v => ∀ j < 64, v.getLsbD j = (x.getLsbD j && decide (j ≤ n.toNat))) ∧
    writes (.bswap d a) (fun v => ∀ j < 64, v.getLsbD j = x.getLsbD (8 * (7 - j / 8) + j % 8)) ∧
    (Answers (.lea n a b) s fun t => WroteReg s t a (BitVec.ofNat 64 (x.toNat + y.toNat * 2 ^ n.toNat))) ∧
    writes (.insh d a b) (fun v =>
      let p := y.toNat % 64
      let w := min (y.toNat / 256 % 128) (64 - p)
      ∀ j < 64, v.getLsbD j = if p ≤ j ∧ j < p + w then x.getLsbD (j - p) else (rd s d).getLsbD j) ∧
    (Answers (.csel d a b) s fun t => WroteReg s t d (if y ≠ 0 then x else rd s d))

/-- R115 (and R30): a branch whose condition holds passes control by 4 times its offset, and one whose condition fails to the next
instruction. -/
def Obligations.ConditionalBranches : Prop :=
  ∀ (s : State) (a b : Reg) (o : BitVec 16),
    let x := rd s a
    let y := rd s b
    let here : Int := s.t.a.pc
    let branches (i : Instr) (c : Prop) : Prop :=
      (c → Answers i s fun t => Jumped s t ((here + 4 * o.toInt) % 2 ^ 64).toNat) ∧
      (¬c → Answers i s fun t => t.t.a.pc = (s.t.a.pc + 4) % 2 ^ 64 ∧ Keeps [.pc, .count] s t)
    branches (.beq a b o) (x = y) ∧
    branches (.bne a b o) (x ≠ y) ∧
    branches (.blt a b o) (x.toInt < y.toInt) ∧
    branches (.bge a b o) (x.toInt ≥ y.toInt) ∧
    branches (.bltu a b o) (x.toNat < y.toNat) ∧
    branches (.bgeu a b o) (x.toNat ≥ y.toNat)

/-- R116 and R117: JAL and JALR leave the return address and jump, and a JALR to an address that is not a multiple of 4 takes the
alignment trap with that address, at the state as it found it; a JTAB whose index lies beyond its table falls through, and one within
it jumps by the entry that it loads. -/
def Obligations.JumpsAndTables : Prop :=
  ∀ (s : State) (d a b : Reg),
    (∀ o : BitVec 21, Answers (.jal d o) s fun t => Linked s t d (((s.t.a.pc : Int) + 4 * o.toInt) % 2 ^ 64).toNat) ∧
    (∀ n : BitVec 16, let p := rd s a + n.signExtend 64
      (p.toNat % 4 = 0 → Answers (.jalr d a n) s fun t => Linked s t d p.toNat) ∧
      (p.toNat % 4 ≠ 0 → exec (.jalr d a n) s = .next (takeTrap s (plainTrap 2 p) s.t.a.pc false false false))) ∧
    ((rd s b).toNat ≤ (rd s d).toNat → Answers (.jtab d a b) s fun t =>
      t.t.a.pc = (s.t.a.pc + 4) % 2 ^ 64 ∧ Keeps [.pc, .count] s t) ∧
    ∀ (s1 : State) (v : Nat), let ea := rd s a + wd (4 * (rd s d).toNat)
      (rd s d).toNat < (rd s b).toNat → (rd s a).toNat % 4 = 0 → loadNat s ea 4 = (s1, .ok v) →
      let p := rd s1 a + (BitVec.ofNat 32 v).signExtend 64
      p.toNat % 4 = 0 → watched s1 ea 4 true false = false → Answers (.jtab d a b) s fun t => Jumped s1 t p.toNat

/-- R34, R46, R116, R119: where an address is not aligned the instruction takes the alignment trap with that address, and with no
effect before it: the trap is taken at the state as the instruction found it. -/
def Obligations.AlignmentTraps : Prop :=
  ∀ (s : State) (d a b : Reg) (i : BitVec 13) (n z : BitVec 1) (sz c : BitVec 2) (m : BitVec 16),
    let traps (j : Instr) (va : Word) (w : Nat) : Prop :=
      va.toNat % w ≠ 0 → exec j s = .next (takeTrap s (plainTrap 2 va) s.t.a.pc false false false)
    traps (.ld d a i sz n) (rd s a + i.signExtend 64) (2 ^ sz.toNat) ∧
    traps (.st d a i sz) (rd s a + i.signExtend 64) (2 ^ sz.toNat) ∧
    traps (.ldx d a b n sz) (rd s a + rd s b * BitVec.ofNat 64 (2 ^ sz.toNat)) (2 ^ sz.toNat) ∧
    traps (.stx d a b sz) (rd s a + rd s b * BitVec.ofNat 64 (2 ^ sz.toNat)) (2 ^ sz.toNat) ∧
    traps (.ldaq d a c sz) (rd s a) (2 ^ sz.toNat) ∧
    traps (.strl d a c sz) (rd s a) (2 ^ sz.toNat) ∧
    traps (.amoadd d a b z sz) (rd s a) (2 ^ sz.toNat) ∧
    traps (.amoswap d a b z 1 sz) (rd s a) 16 ∧
    traps (.amocas d a b z 1 sz) (rd s a) 16 ∧
    traps (.amofadd d a b z) (rd s a) 4 ∧
    traps (.waitv a b) (rd s a) 8 ∧
    traps (.jalr d a m) (rd s a + m.signExtend 64) 4

/-- R118, R119, R120, R305: a load that is aligned, reaches memory with no uncorrectable error and meets no watchpoint delivers the
bytes that the thread sees there, extended as its form says; it stores nothing. An LDAQ marks its chunk for the vector reads that follow it, which
are made no earlier than that chunk. -/
def Obligations.LoadsDeliver : Prop :=
  ∀ (s : State) (d a b : Reg) (i : BitVec 13) (n : BitVec 1) (sz c : BitVec 2) (k : Nat) (l : Option Leaf3),
    let w := 2 ^ sz.toNat
    let loads (j : Instr) (from_ : State) (ea : Word) (zero : Bool) : Prop :=
      ea.toNat % w = 0 → Reaches s .read ea k l → meetsPoison s k w = false → watched s ea w true false = false →
      Answers j s fun t =>
        let v := leNat (viewByte (walked s .read ea)) k w
        Loaded from_ t d (if zero then BitVec.ofNat 64 v else (BitVec.ofNat (8 * w) v).signExtend 64) l
    loads (.ld d a i sz n) s (rd s a + i.signExtend 64) (n == 1) ∧
    loads (.ldx d a b n sz) s (rd s a + rd s b * BitVec.ofNat 64 w) (n == 1) ∧
    (c ≠ 2 → loads (.ldaq d a c sz) (acquire s) (rd s a) false)

/-- R118, R120, R122, R304: a store that is aligned, reaches memory, overlaps no stream of a pending register and meets no
watchpoint leaves the low bytes of its register there and changes no other byte. Of an STRL, which fences all as well (R301), it is said where no
chunk of an earlier pass is still to commit. -/
def Obligations.StoresWrite : Prop :=
  ∀ (s : State) (d a b : Reg) (i : BitVec 13) (sz c : BitVec 2) (k : Nat) (l : Option Leaf3),
    let w := 2 ^ sz.toNat
    let stores (j : Instr) (from_ : State) (ea : Word) : Prop :=
      ea.toNat % w = 0 → Reaches s .write ea k l → overlapped s ea w = [] → watched s ea w false true = false →
      Answers j s fun t => Stored from_ t k w (rd s d).toNat l [] ∧ t.t.a.fstat = s.t.a.fstat
    stores (.st d a i sz) s (rd s a + i.signExtend 64) ∧
    stores (.stx d a b sz) s (rd s a + rd s b * BitVec.ofNat 64 w) ∧
    (c ≠ 2 → s.t.redo = none → stores (.strl d a c sz) (fence 3 s) (rd s a))

/-- R308: what each atomic writes, over w bytes, from the old value and its operand. R307, R308: the 16-byte forms work on register
pairs, low doubleword first. -/
def Obligations.AtomicsAct : Prop :=
  (∀ (s : State) (d a b : Reg) (sz : BitVec 2) (k : Nat) (l : Option Leaf3),
    let ea := rd s a
    let old (w : Nat) : Nat := leNat (viewByte (walked s .amo ea)) k w
    let ready (w : Nat) : Prop := ea.toNat % w = 0 ∧ Reaches s .amo ea k l ∧ meetsPoison s k w = false ∧
      overlapped s ea w = [] ∧ watched s ea w true true = false
    let w := 2 ^ sz.toNat
    let x := (rd s b).toNat % 2 ^ (8 * w)
    let sg (v : Nat) : Int := (BitVec.ofNat (8 * w) v).toInt
    let does (j : Instr) (new : Nat) : Prop := ready w → Answers j s fun t =>
      Stored s t k w new l [d] ∧ rd t d = (if d = 0 then 0 else (BitVec.ofNat (8 * w) (old w)).signExtend 64) ∧
      t.t.a.fstat = s.t.a.fstat
    does (.amoadd d a b 0 sz) (old w + x) ∧
    does (.amoand d a b 0 sz) (old w &&& x) ∧
    does (.amoor d a b 0 sz) (old w ||| x) ∧
    does (.amoxor d a b 0 sz) (old w ^^^ x) ∧
    does (.amomin d a b 0 sz) (if sg x < sg (old w) then x else old w) ∧
    does (.amomax d a b 0 sz) (if sg (old w) < sg x then x else old w) ∧
    does (.amominu d a b 0 sz) (min (old w) x) ∧
    does (.amomaxu d a b 0 sz) (max (old w) x) ∧
    does (.amoswap d a b 0 0 sz) x ∧
    (old w = (rd s d).toNat % 2 ^ (8 * w) → does (.amocas d a b 0 0 sz) x) ∧
    (old w ≠ (rd s d).toNat % 2 ^ (8 * w) → ready w → Answers (.amocas d a b 0 0 sz) s fun t =>
      Loaded s t d ((BitVec.ofNat (8 * w) (old w)).signExtend 64) l) ∧
    (ready 4 → Answers (.amofadd d a b 0) s fun t =>
      let r := fpAdd 8 0 false (BitVec.ofNat 32 (old 4)) (BitVec.ofNat 32 (rd s b).toNat)
      Stored s t k 4 r.1.toNat l [d] ∧ rd t d = (if d = 0 then 0 else BitVec.ofNat 64 (old 4)) ∧
      t.t.a.fstat = s.t.a.fstat ||| r.2)) ∧
  (∀ (s : State) (d a b : Reg) (sz : BitVec 2) (k : Nat) (l : Option Leaf3),
    let ea := rd s a
    let old := leNat (viewByte (walked s .amo ea)) k 16
    let pair (r : Reg) : Nat := (rd s r).toNat + 2 ^ 64 * (rd s (r + 1)).toNat
    let result (t : State) : Prop := rd t d = (if d = 0 then 0 else BitVec.ofNat 64 old) ∧
      rd t (d + 1) = BitVec.ofNat 64 (old / 2 ^ 64)
    d.toNat % 2 = 0 → ea.toNat % 16 = 0 → Reaches s .amo ea k l → meetsPoison s k 16 = false → overlapped s ea 16 = [] →
    watched s ea 16 true true = false →
    (Answers (.amoswap d a b 0 1 sz) s fun t => Stored s t k 16 (pair b) l [d, d + 1] ∧ result t) ∧
    (old = pair d → Answers (.amocas d a b 0 1 sz) s fun t => Stored s t k 16 (pair b) l [d, d + 1] ∧ result t) ∧
    (old ≠ pair d → Answers (.amocas d a b 0 1 sz) s fun t => result t ∧ (∀ r, r ≠ d → r ≠ d + 1 → rd t r = rd s r) ∧
      follows s t ∧ ∀ p, ¬ marks l p → viewByte t p = viewByte s p))

/-- R304, R305, R306, R308, R310: the forms of wider scope. LDAQ.DOM commits its chunk after the load; STRL.DOM waits for the acknowledgements
of remote writes, fences all, stores and commits; an AMO.FAR commits the chunk before it, acts as its form of narrower scope does, and commits its own.
Where a write of a device register is uncommitted both commit it first and run again (R378). A WAITV that finds another value commits its
chunk and goes on; one that finds the value it was given stalls, its chunk closed and still to commit, unless a watchpoint takes it to its
successor (the model's reading of R411, log entry 108). -/
def Obligations.ScopedAccessesAndWaits : Prop :=
  (∀ (s s1 s2 : State) (d a b : Reg) (sz : BitVec 2) (v : Nat),
    let ea := rd s a
    let w := 2 ^ sz.toNat
    (ea.toNat % w = 0 → loadNat s ea w = (s1, .ok v) → Answers (.ldaq d a 2 sz) s fun t =>
      ∃ u, t = afterAccess (commitOpen u) ea w true false ∧ follows s1 u ∧ puts s1 u d ((BitVec.ofNat (8 * w) v).signExtend 64) ∧
        Keeps [.x, .pc, .count] (acquire s1) u) ∧
    (¬noDevWrites s → ea.toNat % w = 0 → exec (.strl d a 2 sz) s = .next (commitOpen s) ∧
      exec (.amoadd d a b 1 sz) s = .next (commitOpen s)) ∧
    (noDevWrites s → let u := settleSealed (commitOpen s)
      ea.toNat % w = 0 → u.t.unacked ≠ 0 → Answers (.strl d a 2 sz) s fun t => t.t.stall = .acks ∧ Keeps [.stall] u t) ∧
    (noDevWrites s → ea.toNat % w = 0 → s1 = fence 3 (settleSealed (commitOpen s)) → s1.t.unacked = 0 → overlapped s1 ea w = [] →
      (∃ p, lookup s1 (who s1) .write ea = .ok p) → storeNat s1 ea w ((rd s1 d).toNat % 2 ^ (8 * w)) = (s2, .ok ()) →
      Answers (.strl d a 2 sz) s fun t => ∃ u, t = afterAccess (commitOpen u) ea w false true ∧ follows s2 u ∧
        sameRegs s2 u ∧ Keeps [.pc, .count] s2 u) ∧
    ∀ (k : Nat) (l : Option Leaf3), noDevWrites s → s1 = commitOpen s →
      let old (n : Nat) : Nat := leNat (viewByte (walked s1 .amo ea)) k n
      let x := (rd s b).toNat % 2 ^ (8 * w)
      let sg (v : Nat) : Int := (BitVec.ofNat (8 * w) v).toInt
      let pair (r : Reg) : Nat := (rd s r).toNat + 2 ^ 64 * (rd s (r + 1)).toNat
      let ready (n : Nat) : Prop := ea.toNat % n = 0 ∧ Reaches s1 .amo ea k l ∧ meetsPoison s1 k n = false ∧ overlapped s1 ea n = []
      let far (j : Instr) (n new : Nat) (ds : List Reg) (P : State → Prop) : Prop := ready n → Answers j s fun t =>
        ∃ u, t = afterAccess (commitOpen u) ea n true true ∧ Stored s1 u k n new l ds ∧ P u
      let one (j : Instr) (new : Nat) : Prop := far j w new [d] fun u =>
        rd u d = (if d = 0 then 0 else (BitVec.ofNat (8 * w) (old w)).signExtend 64) ∧ u.t.a.fstat = s1.t.a.fstat
      let two (u : State) : Prop := rd u d = (if d = 0 then 0 else BitVec.ofNat 64 (old 16)) ∧
        rd u (d + 1) = BitVec.ofNat 64 (old 16 / 2 ^ 64)
      one (.amoadd d a b 1 sz) (old w + x) ∧ one (.amoand d a b 1 sz) (old w &&& x) ∧
      one (.amoor d a b 1 sz) (old w ||| x) ∧ one (.amoxor d a b 1 sz) (old w ^^^ x) ∧
      one (.amomin d a b 1 sz) (if sg x < sg (old w) then x else old w) ∧
      one (.amomax d a b 1 sz) (if sg (old w) < sg x then x else old w) ∧
      one (.amominu d a b 1 sz) (min (old w) x) ∧ one (.amomaxu d a b 1 sz) (max (old w) x) ∧
      one (.amoswap d a b 1 0 sz) x ∧
      (old w = (rd s d).toNat % 2 ^ (8 * w) → one (.amocas d a b 1 0 sz) x) ∧
      (old w ≠ (rd s d).toNat % 2 ^ (8 * w) → ready w → Answers (.amocas d a b 1 0 sz) s fun t =>
        ∃ u, t = afterAccess (commitOpen u) ea w true true ∧ Loaded s1 u d ((BitVec.ofNat (8 * w) (old w)).signExtend 64) l) ∧
      (let r := fpAdd 8 0 false (BitVec.ofNat 32 (old 4)) (BitVec.ofNat 32 (rd s b).toNat)
       far (.amofadd d a b 1) 4 r.1.toNat [d] fun u =>
        rd u d = (if d = 0 then 0 else BitVec.ofNat 64 (old 4)) ∧ u.t.a.fstat = s1.t.a.fstat ||| r.2) ∧
      (d.toNat % 2 = 0 → far (.amoswap d a b 1 1 sz) 16 (pair b) [d, d + 1] two ∧
        (old 16 = pair d → far (.amocas d a b 1 1 sz) 16 (pair b) [d, d + 1] two) ∧
        (old 16 ≠ pair d → ready 16 → Answers (.amocas d a b 1 1 sz) s fun t =>
          ∃ u, t = afterAccess (commitOpen u) ea 16 true true ∧ two u ∧ (∀ r, r ≠ d → r ≠ d + 1 → rd u r = rd s1 r) ∧
            follows s1 u ∧ ∀ p, ¬ marks l p → viewByte u p = viewByte s1 p))) ∧
  (∀ (s : State) (a b : Reg) (k : Nat) (l : Option Leaf3), let ea := rd s a
    let v : Word := BitVec.ofNat 64 (leNat (viewByte (walked s .read ea)) k 8)
    ea.toNat % 8 = 0 → Reaches s .read ea k l → meetsPoison s k 8 = false →
    (v ≠ rd s b → Answers (.waitv a b) s fun t => ∃ u, t = afterAccess (commitOpen u) ea 8 true false ∧ Loaded s u 0 v l) ∧
    (v = rd s b → watched s ea 8 true false = true → Answers (.waitv a b) s fun t =>
      ∃ u, t = afterAccess (commitOpen u) ea 8 true false ∧ Loaded s u 0 v l) ∧
    (v = rd s b → watched s ea 8 true false = false → Answers (.waitv a b) s fun t =>
      ∃ u, t = modT (closeLater u) (fun x => { x with stall := .waitv (k / 64) false }) ∧ sameRegs s u ∧ sameCsrs s u ∧
        u.t.a.pc = s.t.a.pc ∧ ∀ p, ¬ marks l p → viewByte u p = viewByte s p))

/-- R121, R301, R350, R362: a prefetch changes nothing but the program counter, but that one whose address does not translate or may not be
read adds one to the VF's count of dropped translations (as does, by log entry 137, one whose lookup fails otherwise). A fence stalls nothing and
closes nothing. In this model a thread issues accesses and passes in program order (log entry 21), so that FENCE.SV and FENCE.ALL mark the thread's
chunks that have stored before them, for the vector reads that follow, and FENCE.VS, FENCE.VV and FENCE.ALL mark what the last chunk of a completed pass must come before; a steward has no vector side. R270, R290, R291: CHUNKEND
closes the chunk after itself and leaves its commit for later; CHUNKLIM lowers the limit and returns the old one. -/
def Obligations.FencesAndChunks : Prop :=
  (∀ (s : State) (a : Reg) (p : Nat × Option Leaf3), lookup s (who s) .read (rd s a) = .ok p → Answers (.pref a) s fun t =>
    follows s t ∧ sameRegs s t ∧ sameCsrs s t ∧ Keeps [.pc, .count] s t) ∧
  (∀ (s : State) (k : BitVec 2), Answers (.fence k) s fun t => follows s t ∧ sameRegs s t ∧ sameCsrs s t ∧
    Keeps [.pc, .count, .fences] s t ∧ t.agenda = s.agenda ∧ (¬onComputeCore s → Keeps [.pc, .count] s t) ∧
    (onComputeCore s →
      t.t.chunk.fenced = (s.t.chunk.fenced || (decide (k = 0 ∨ k = 3) && !s.t.chunk.writes.isEmpty)) ∧
      t.t.closed = (if k = 0 ∨ k = 3 then s.t.closed.map fun c => { c with fenced := true } else s.t.closed) ∧
      (s.t.redo = none → t.t.redo = none) ∧
      ∀ r, s.t.redo = some r → t.t.redo = some { r with vs := r.vs || decide (k = 1 ∨ k = 3), vv := r.vv || decide (k = 2 ∨ k = 3) })) ∧
  (∀ (s : State) (a : Reg) (c : Nat), lookup s (who s) .read (rd s a) = .error c → Sorted s → Answers (.pref a) s fun t =>
    devGet t (paCount s.t.vfid 24) = devGet s (paCount s.t.vfid 24) + 1 ∧ follows s t ∧ sameRegs s t ∧
    Keeps [.pc, .count] s { t with dev := s.dev }) ∧
  (∀ (s : State) (d a : Reg),
    (s.t.closed = none → s.t.a.chkNext = none → s.t.reserving = false → Answers .chunkend s fun t =>
      t.t.closed = some { s.t.chunk with count := s.t.chunk.count + 1 } ∧
      t.t.chunk = Chunk.empty ((s.t.a.pc + 4) % 2 ^ 64) (s.t.chunk.num + 1) ∧
      t.agenda = s.agenda ++ [.event (.chunkCommit s.cur)] ∧ follows s t ∧ sameRegs s t ∧
      ∀ k, viewByte t k = viewByte s k) ∧
    Answers (.chunklim d a) s fun t =>
      t.t.a.chkLim = max 1 (min (rd s a).toNat s.t.a.chkLim) ∧
      t.t.a.chkEff = min s.t.a.chkEff (max 1 (min (rd s a).toNat s.t.a.chkLim)) ∧
      puts s t d (BitVec.ofNat 64 s.t.a.chkLim) ∧ follows s t ∧ Keeps [.x, .pc, .count, .chklim] s t)

/-- R50, R125, R126, R407, R422: a CSR instruction that may name its CSR delivers the old value and leaves every CSR as the write leaves
it; CSRRD changes nothing else. A number from 0x100 closes the open chunk and commits it first; it, FSTAT (R83) and a lane-cycle counter wait for
the chunk that an earlier pass has sealed. A write of FOTBASE, which names the table of the memory keys, is said to keep memory where no key has been loaded anew. -/
def Obligations.CsrInstructions : Prop :=
  ∀ (s : State) (d a : Reg) (c : BitVec 12), let n := c.toNat
    csrOk s n = true → (n = 9 → ∀ m ∈ (settleSealed s).c.mat, m.tid ≠ (settleSealed s).cur) →
    let low (i : Instr) (f : Word → Word → Option Word) : Prop := let u := if waitsForPass n = true then settleSealed s else s
      n < 0x100 → (csrTimed n = true → quiet u) → Answers i s fun t =>
        puts u t d (csrValue u n) ∧ follows u t ∧
        (∀ m, csrValue t m = csrValue (match f (csrValue u n) (rd u a) with | none => u | some x => csrPut u n x) m) ∧
        ∀ k, viewByte t k = viewByte u k
    let high (i : Instr) (m : CsrMode) (f : Word → Word → Option Word) : Prop := let u := settleSealed (closedAfter s)
      0x100 ≤ n → csrGuest s m n = false → Answers i s fun t =>
        puts u t d (csrValue u n) ∧ follows s t ∧
        (∀ j, csrValue t j = csrValue (match f (csrValue u n) (rd u a) with | none => u | some x => csrPut u n x) j) ∧
        ((n = 0x213 → u.keyGen = []) → ∀ k, viewByte t k = viewByte u k)
    low (.csrrd d c) (fun _ _ => none) ∧ (n < 0x100 → csrTimed n = false → n ≠ 9 → Answers (.csrrd d c) s fun t => WroteReg s t d (csrValue s n)) ∧
    low (.csrwr d a c) (fun _ x => some x) ∧
    (n ≠ 0x20 → low (.csrset d a c) (fun old x => some (old ||| x)) ∧ low (.csrclr d a c) (fun old x => some (old &&& ~~~x))) ∧
    (n = 0x20 → low (.csrset d a c) (fun _ _ => none) ∧ low (.csrclr d a c) (fun _ x => some x)) ∧
    high (.csrrd d c) .read (fun _ _ => none) ∧
    high (.csrwr d a c) .write (fun _ x => some x) ∧
    high (.csrset d a c) .set (fun old x => some (old ||| x)) ∧
    high (.csrclr d a c) .clear (fun old x => some (old &&& ~~~x))

/-- R78, R79, R80, R152, R191, R219, R222, R254, R266, R292: what a write leaves in each user CSR. A reserved rounding mode of FCTL and
a threshold above 16 are not taken; EFF of CHKLIM changes from the next chunk on; EVF is cleared by ones; and a write of a register that is
read-only, the lane-cycle counters among them (R52, R407), leaves all as it was. R347, R354, R355, R386, R394, R402: what a write leaves in
each system CSR. Reserved bits read zero, a reserved level is not taken, TRAPADDR and its like are read-only, and a write of CTXBASE sets the
dirty bit of every vector register and every mask register. -/
def Obligations.CsrFields : Prop :=
  (∀ (s : State) (x : Word), let n (i : Nat) : Word := csrValue (csrPut s i x) i
    let at51 (lo : Nat) : Word := BitVec.ofNat 64 (x.toNat / 2 ^ lo * 2 ^ lo % 2 ^ 52)
    n 8 = BitVec.ofNat 64 (8 * (x.toNat / 8 % 2) + if x.toNat % 8 ≤ 4 then x.toNat % 8 else s.t.a.fctl.toNat % 8) ∧
    n 9 = BitVec.ofNat 64 (x.toNat % 64) ∧
    n 0xA = BitVec.ofNat 64 (x.toNat % 4) ∧
    n 0xB = (if x.toNat % 32 ≤ 16 then BitVec.ofNat 64 (x.toNat % 32) else csrValue s 0xB) ∧
    (csrPut s 0x10 x).t.a.chkEff = s.t.a.chkEff ∧
    (csrPut s 0x10 x).t.a.chkLim = (if x.toNat % 8192 = 0 ∨ 4096 < x.toNat % 8192 then 4096 else x.toNat % 8192) ∧
    (csrPut s 0x10 x).t.a.chkNext = some (csrPut s 0x10 x).t.a.chkLim ∧
    (∀ j < 16, (csrPut s 0x20 x).t.a.done.getLsbD j = (s.t.a.done.getLsbD j && !x.getLsbD j) ∧
      (csrPut s 0x20 x).t.a.efault.getLsbD j = (s.t.a.efault.getLsbD j && !x.getLsbD (16 + j))) ∧
    n 0x21 = at51 2 ∧ n 0x23 = at51 2 ∧
    (csrPut s 0x22 x).t.a.uien = x.setWidth 16 ∧ (csrPut s 0x22 x).t.a.uiactive = s.t.a.uiactive ∧
    n 0x40 = (if s.t.lvl = .u then csrValue s 0x40 else at51 12) ∧
    n 0x41 = (if s.t.lvl = .u then csrValue s 0x41 else at51 12) ∧
    (csrPut s 1 x).t.a.vrs = #v[x.toNat % 2 ^ 31, x.toNat / 2 ^ 32 % 2 ^ 31, s.t.a.vrs[2], s.t.a.vrs[3]] ∧
    (csrPut s 2 x).t.a.vrs = #v[s.t.a.vrs[0], s.t.a.vrs[1], x.toNat % 2 ^ 31, x.toNat / 2 ^ 32 % 2 ^ 31] ∧
    (∀ i, 0x60 ≤ i → i < 0x80 → csrPut s i x = s) ∧
    ∀ i ∈ [0, 0x18, 0x19, 0x1A, 0x1B, 0x1C, 0x30, 0x31, 0x32, 0x33, 0x34, 0x38, 0x39, 0x3A, 0x3B, 0x48], csrPut s i x = s) ∧
  (∀ (s : State) (x : Word), let n (i : Nat) : Word := csrValue (csrPut s i x) i
    let bits (hi lo : Nat) : Word := BitVec.ofNat 64 (x.toNat / 2 ^ lo % 2 ^ (hi + 1 - lo) * 2 ^ lo)
    n 0x100 = bits 51 2 ∧ n 0x102 = bits 51 2 ∧ n 0x103 = bits 7 0 ∧ n 0x110 = bits 51 12 ∧
    n 0x111 = bits 51 23 ||| bits 7 0 ∧ n 0x120 = bits 49 12 ∧ n 0x121 = bits 15 0 ∧
    n 0x200 = bits 51 2 ∧ n 0x202 = bits 51 2 ∧ n 0x203 = bits 7 0 ∧ n 0x210 = bits 5 0 ∧ n 0x211 = bits 12 0 ∧
    n 0x212 = bits 63 63 ||| bits 49 12 ∧ n 0x213 = bits 49 16 ∧
    n 0x101 = (bits 7 5 ||| BitVec.ofNat 64 (if x.toNat % 4 ≤ 1 then x.toNat % 4 else s.t.tstatus.toNat % 4)) ∧
    n 0x201 = (bits 7 4 ||| BitVec.ofNat 64 (if x.toNat % 4 ≤ 2 then x.toNat % 4 else s.t.hstatus.toNat % 4)) ∧
    (∀ i ∈ [0x104, 0x105, 0x106, 0x204], csrPut s i x = s) ∧
    (∀ r : Reg, ((csrPut s 0x110 x).t.a.v[r.toNat]'(r.isLt)).dirty = true) ∧
    (∀ k : BitVec 3, ((csrPut s 0x110 x).t.a.m[k.toNat]'(k.isLt)).dirty = true))

/-- R127, R272: RAND closes the open chunk after itself, which commits, and delivers the draw kept with the checkpoint, or the entropy source's next;
the draw is kept, and a RAND that a squash has brought back finds its chunk committed and draws no more. While the source is unhealthy it stalls, from
a time of its die on. What the source gives is a free value of the model (log entry 4). -/
def Obligations.RandDraws : Prop :=
  ∀ (s : State) (d : Reg), let again := s.t.draw ≠ none ∧ s.t.chunk.idle = true ∧ s.t.ckptOpen.pc = s.t.a.pc
    ∀ u, ((again ∧ u = s) ∨ (¬again ∧ u = closedAfter s)) → quiet u →
    ((u.healthy = true ∨ u.t.draw ≠ none) → Answers (.rand d) s fun t =>
      let v := u.t.draw.getD (Config.entropy u.draws)
      puts u t d v ∧ t.t.draw = some v ∧ t.draws = (if u.t.draw = none then u.draws + 1 else u.draws) ∧ follows u t ∧
      Keeps [.x, .pc, .draw] u t) ∧
    (u.healthy = false → u.t.draw = none → Answers (.rand d) s fun t =>
      t.t.stall = .rand (dieTime u (dieOf (coreOf u.cur))) ∧ Keeps [.stall] u t)

/-- R88, R93, R96: PARK and NAP commit the open chunk; a wake token that is set is consumed and they complete, and without one the
thread is PARKED or NAPPING, to go on at the next instruction. R97, R98: PARK.C of 0 cycles completes, and of more waits with its count,
which is what was left where a pre-emption has interrupted it at this pc and level (DEDUCED, log entry 80); YIELD makes its thread not ready for 16 core cycles where the sibling of a
compute core is RUNNING, and has no further effect elsewhere. Neither closes the
chunk. -/
def Obligations.ThreadsWait : Prop :=
  (∀ (s : State) (d : Reg), let u := closedAfter s
    quiet u →
    (u.t.a.token = true → Answers (.park d) s fun t =>
      puts u t d 0 ∧ t.t.a.token = false ∧ follows u t ∧ Keeps [.x, .pc, .token, .ckpt] u t) ∧
    (u.t.a.token = false → Answers (.park d) s fun t =>
      t.t.run = .parked ∧ t.t.parkReg = d ∧ sameRegs u t ∧ follows u t ∧ Keeps [.pc, .run, .ckpt] u t) ∧
    (u.t.a.token = true → Answers .nap s fun t =>
      t.t.a.token = false ∧ sameRegs u t ∧ follows u t ∧ Keeps [.pc, .token, .ckpt] u t) ∧
    (u.t.a.token = false → Answers .nap s fun t =>
      t.t.run = .napping ∧ t.t.napDone = u.t.a.done ∧ sameRegs u t ∧ follows u t ∧ Keeps [.pc, .run, .ckpt] u t)) ∧
  (∀ (s : State) (a : Reg),
    let n := ((s.t.parkKept.find? fun e => e.1 == s.t.a.pc && e.2.1 == s.t.lvl).map fun e => e.2.2).getD (rd s a)
    let other := (threadAt s (siblingOf s.cur)).run
    (n = 0 → Answers (.parkC a) s fun t => follows s t ∧ sameRegs s t ∧ Keeps [.pc, .count, .run] s t ∧ t.t.run = s.t.run) ∧
    (n ≠ 0 → Answers (.parkC a) s fun t => t.t.run = .timed ∧ t.t.parkLeft = some n ∧ sameRegs s t ∧ Keeps [.run] s t) ∧
    ((isSteward s.cur = true ∨ other ≠ .running) → Answers .yield s fun t => follows s t ∧ sameRegs s t ∧ Keeps [.pc, .count] s t) ∧
    (onComputeCore s → other = .running → Answers .yield s fun t =>
      t.t.stall = .yield 16 ∧ follows s t ∧ sameRegs s t ∧ Keeps [.pc, .count, .stall] s t))

/-- R94, R361: WAKE commits its chunk. Status 0, and a message, where the target runs a context of the same VFID; 1 where it does not
exist, is of another VFID, is HALTED and the sender at U, or is HALTED and the image beyond what the sender may start; 2 for a start with
no image or a misaligned one; and any other start stalls its sender. Where a write of a device register is uncommitted it commits that first and runs
again (R378). -/
def Obligations.WakeSignals : Prop :=
  ∀ (s : State) (d a b : Reg), let u := closedAfter s
    let dst := (rd s a).toNat
    let image := rd s b
    let target := threadAt u dst
    let gives (v : Word) : Prop := Answers (.wake d a b) s fun t => puts u t d v ∧ follows u t ∧ t.wakes = u.wakes ∧
      Keeps [.x, .pc, .ckpt] u t
    (¬noDevWrites s → exec (.wake d a b) s = .next (commitOpen s)) ∧
    (noDevWrites s → quiet u →
    (336 ≤ dst → gives 1) ∧
    (dst < 336 → target.run ≠ .halted → target.vfid ≠ u.t.vfid → gives 1) ∧
    (dst < 336 → target.run = .halted → u.t.lvl = .u → gives 1) ∧
    (dst < 336 → target.run = .halted → u.t.lvl ≠ .u → (image = 0 ∨ image.toNat % 4096 ≠ 0) → gives 2) ∧
    (dst < 336 → target.run ≠ .halted → target.vfid = u.t.vfid → Answers (.wake d a b) s fun t =>
      puts u t d 0 ∧ follows u t ∧ t.wakes = u.wakes ++ [.wake u.cur dst 0 u.t.lvl u.t.vfid] ∧
      t.agenda = u.agenda ++ [.event (.wakeDelivery u.cur dst)]) ∧
    (dst < 336 → target.run = .halted → u.t.lvl ≠ .u → image ≠ 0 → image.toNat % 4096 = 0 → startRefused u dst image = true → gives 1) ∧
    (dst < 336 → target.run = .halted → u.t.lvl ≠ .u → image ≠ 0 → image.toNat % 4096 = 0 → startRefused u dst image = false →
     Answers (.wake d a b) s fun t =>
      t.t.stall = .wakeAck d none ∧ t.wakes = u.wakes ++ [.wake u.cur dst image u.t.lvl u.t.vfid] ∧ sameRegs u t ∧
      t.t.a.pc = u.t.a.pc))

/-- R191, R192: VSETL grants at most 2^31 − 1 elements, sets both fields of VL and returns the grant. The thread's steps in the matrix array are
over before its rows may change hands (R225). -/
def Obligations.VectorLength : Prop :=
  ∀ (s : State) (d a : Reg), let g := min (rd s a).toNat (2 ^ 31 - 1)
    onComputeCore s → Answers (.vsetl d a) s fun t =>
      t.t.a.vlLen = g ∧ t.t.a.vlGrant = g ∧ puts s t d (BitVec.ofNat 64 g) ∧ follows s t ∧
      Keeps [.pc, .count, .share] (drainMatrix (wr (modA s fun r => { r with vlGrant := g, vlLen := g }) d (BitVec.ofNat 64 g))) t ∧
      ((∀ m ∈ s.c.mat, m.tid ≠ s.cur) → Keeps [.x, .pc, .count, .vl, .share] s t)

/-- R140, R141, R193, R194, R195: a binding whose addresses are aligned takes the lowest free leaf slot and makes its registers PENDING
on the leaf, with the length of VL; it reads no element; of one whose capture pass has freed a slot (R141) this is not said. R197, R198: a shaped binding reads its 64-byte record and takes the shape as
its layout, with the shape's size as its greatest length. -/
def Obligations.BindingsTakeLeafSlots : Prop :=
  (∀ (s : State) (v a b n : Reg) (k : BitVec 3) (ty : BitVec 4),
    let t0 := ty.toNat
    let w := tyBytes t0
    let slot := freeSlot s.t.a
    let leaf (lay : Layout) (ty : Nat) (ff : Bool) : Leaf :=
      { slot := slot, seq := s.t.a.nextId, base := rd s a, lay := lay, ty := ty, len := s.t.a.vlLen, ff := ff, bpc := s.t.a.pc }
    let val (f ty : Nat) : Val :=
      { ref := .leaf slot f, len := s.t.a.vlLen, ty := ty, blame := { kind := 1, pos := 0, pc := s.t.a.pc } }
    let binds (i : Instr) (l : Leaf) (regs : List Nat) : Prop := Answers i s fun t =>
      (∀ f < regs.length, regVal t.t.a (regs.getD f 0) = val f l.ty) ∧ l ∈ t.t.a.leaves ∧ sameRegs s t ∧ follows s t ∧
      Keeps [.vec, .bases, .pc, .count] s t
    onComputeCore s → s.t.a.freeing = none → s.t.a.leaves.length < 8 →
    ((rd s a).toNat % w = 0 →
      binds (.vld v a ty) (leaf .unit t0 false) [v.toNat] ∧
      binds (.vldFf v a ty) (leaf .unit t0 true) [v.toNat] ∧
      ((rd s b).toNat % w = 0 → binds (.vlds v a b ty) (leaf (.strided (rd s b)) t0 false) [v.toNat]) ∧
      (tyInt (vreg s.t.a b).ty = true → binds (.vldx v a b ty) (leaf (.indexed (vreg s.t.a b)) t0 false) [v.toNat]) ∧
      (2 ≤ n.toNat → n.toNat ≤ 8 → v.toNat + n.toNat ≤ 32 →
        binds (.vldseg v a n ty) (leaf (.seg n.toNat) t0 false) ((List.range n.toNat).map (v.toNat + ·)))) ∧
    (k ≠ 0 → binds (.vldM k a) (leaf .unit 14 false) [32 + k.toNat])) ∧
  (∀ (s u : State) (v a b : Reg) (ty : BitVec 4) (rec : Nat),
    onComputeCore s → (rd s a).toNat % tyBytes ty.toNat = 0 → (rd s b).toNat % 64 = 0 →
    loadNat s (rd s b) 64 = (u, .ok rec) → u.t.a.freeing = none → u.t.a.leaves.length < 8 → badStride (shapeOf rec) (tyBytes ty.toNat) = none →
    Answers (.vldt v a b ty) s fun t =>
      regVal t.t.a v.toNat = { ref := .leaf (freeSlot u.t.a) 0, len := min u.t.a.vlLen (shapeOf rec).size, ty := ty.toNat,
                               blame := { kind := 1, pos := 0, pc := u.t.a.pc } } ∧
      (∃ l ∈ t.t.a.leaves, l.slot = freeSlot u.t.a ∧ l.base = rd u a ∧ l.lay = .shape (shapeOf rec)) ∧
      sameRegs u t ∧ follows u t ∧ Keeps [.vec, .bases, .pc, .count] u t)

/-- R161, R188, R206 to R209: the instructions that act on RESIDENT values within the resident limit. R189, R209, R210: the mask
instructions on RESIDENT masks: the count of set bits, the first of them or all ones, a logic function of two masks by its truth table,
and copies between mask and vector registers. m0 has VL.LEN bits, all set. -/
def Obligations.ResidentValuesAndMasks : Prop :=
  (∀ (s : State) (v a b : Reg) (k : BitVec 3) (ty : BitVec 4),
    let fits (r : Reg) : Prop := (vreg s.t.a r).resident = true ∧ (vreg s.t.a r).len ≤ residentLimit (vreg s.t.a r).ty
    let keeps (t : State) : Prop := sameRegs s t ∧ follows s t ∧ Keeps [.vec, .pc, .count] s t
    let x := vreg s.t.a v
    let y := vreg s.t.a b
    let i := (rd s b).toNat
    onComputeCore s →
    (Answers (.vdrop v) s fun t => vreg t.t.a v = Val.empty ∧ keeps t) ∧
    (s.t.a.vlLen ≤ residentLimit ty.toNat → Answers (.vbcast v a ty) s fun t => keeps t ∧
      vreg t.t.a v = residentVal ty.toNat (List.replicate s.t.a.vlLen (holdAs ty.toNat (readWord ty.toNat (rd s a))))) ∧
    (fits v → Answers (.vmat v) s fun t => keeps t ∧ vreg t.t.a v = x) ∧
    (x.pending = false → Answers (.force v) s fun t => keeps t ∧ vreg t.t.a v = x) ∧
    (fits v → Answers (.vget v a b) s fun t =>
      WroteReg s t a (if i < x.len then elemWord x.ty (x.lanes.getD i 0) else 0)) ∧
    (fits v → x.len ≤ i → Answers (.vins v a b) s fun t => keeps t ∧ vreg t.t.a v = x) ∧
    (fits v → i < x.len → Answers (.vins v a b) s fun t => sameRegs s t ∧ follows s t ∧
      vreg t.t.a v = residentVal x.ty (x.lanes.set i (insertLane s.t.a x.ty (rd s a)).1) ∧
      t.t.a.fstat = s.t.a.fstat ||| (insertLane s.t.a x.ty (rd s a)).2 ∧ Keeps [.vec, .fstat, .pc, .count] s t) ∧
    (fits b → tyInt y.ty = true → y.len ≤ residentLimit 14 → Answers (.vconf v b) s fun t => keeps t ∧
      vreg t.t.a v = residentVal 14 ((List.range y.len).map fun e => wd (b2n (conflicts y.ty y.lanes e)))) ∧
    (fits b → maskReady s k = true → Answers (.vcompact v k b) s fun t => keeps t ∧
      vreg t.t.a v = residentVal y.ty (((List.range y.len).filter (readyBit s k)).map fun e => y.lanes.getD e 0))) ∧
  (∀ (s : State) (d v : Reg) (k a b : BitVec 3) (tt : BitVec 4),
    let bit (r : BitVec 3) (e : Nat) : Bool := decide (e < readyLen s r) && readyBit s r e
    let keeps (t : State) : Prop := sameRegs s t ∧ follows s t ∧ Keeps [.vec, .pc, .count] s t
    onComputeCore s →
    (maskReady s k = true → Answers (.mcnt d k) s fun t => WroteReg s t d
      (BitVec.ofNat 64 ((List.range (readyLen s k)).filter (bit k)).length)) ∧
    (maskReady s k = true → (∃ e, bit k e = true) → ∃ e, bit k e = true ∧ (∀ j < e, bit k j = false) ∧
      Answers (.mfirst d k) s fun t => WroteReg s t d (BitVec.ofNat 64 e)) ∧
    (maskReady s k = true → (∀ e, bit k e = false) →
      Answers (.mfirst d k) s fun t => WroteReg s t d 0xFFFFFFFFFFFFFFFF) ∧
    (let n := max (readyLen s a) (readyLen s b)
     k ≠ 0 → maskReady s a = true → maskReady s b = true → n ≤ residentLimit 14 → Answers (.mlogLogic k a tt b) s fun t =>
      keeps t ∧ mreg t.t.a k = residentVal 14 ((List.range n).map fun e =>
        wd (b2n (tt.getLsbD (2 * b2n (bit a e) + b2n (bit b e)))))) ∧
    (k ≠ 0 → (vreg s.t.a v).ty = 14 → Answers (.mlogFromVector k v) s fun t => keeps t ∧ mreg t.t.a k = vreg s.t.a v) ∧
    Answers (.mlogToVector v a) s fun t => keeps t ∧ vreg t.t.a v = mreg s.t.a a)

/-- R147, R148, R161, R203, R204, R370: an instruction that needs the elements of a value forces a pass: the open chunk commits and the
pass, with the instruction's sink, is in flight; the thread issues nothing until it ends. R147 to R150, R199 to R201: a vector store or
scatter-reduce whose extent meets no stream of a pending register forces a pass with its own sink alone. In each case the nodes that the
sink needs fit one pass, and none has been captured for the instruction before (R146). The length of a VSTT (R200 over R197) and the empty extent of
a scatter of length 0 are the model's readings (log entries 93 and 105). -/
def Obligations.SinksAndStoresForcePasses : Prop :=
  (∀ (s : State) (v d a : Reg) (k q : BitVec 3) (ty : BitVec 4),
    let x := vreg s.t.a v
    let u := closedAfter s
    let forces (i : Instr) (kind : SinkKind) (m : Option Val) (bl : Blame) : Prop :=
      let sink : Sink := { kind := kind, srcs := [x], len := x.len, mask := m, blame := bl }
      overflowCut s.t.a [sink] = [] → Answers i s fun t =>
      (∃ p, t.t.pass = some p ∧ p.sinks = [sink] ∧
        p.len = x.len ∧ p.fpc = s.t.a.pc ∧ p.completes = true ∧ p.next = s.t.a.vrs.mapIdx clusterFirst) ∧
      sameRegs u t ∧ t.t.a.pc = u.t.a.pc ∧ Keeps [.pass, .share] u t
    let reduces (i : Instr) (op : RedOp) (withIdx : Bool) : Prop :=
      x.ty = ty.toNat → forces i (.reduce op d withIdx) (maskOf s.t.a k) { kind := 2, pos := 0, pc := s.t.a.pc }
    onComputeCore s → s.t.a.inner = [] →
    reduces (.vredAdd v d k ty) .add false ∧ reduces (.vredMin v d k ty) .min false ∧
    reduces (.vredMax v d k ty) .max false ∧ reduces (.vredAnd v d k ty) .and false ∧
    reduces (.vredOr v d k ty) .or false ∧ reduces (.vredXor v d k ty) .xor false ∧
    reduces (.vrediMin v d k ty) .min true ∧ reduces (.vrediMax v d k ty) .max true ∧
    (x.resident = false → x.len ≤ residentLimit x.ty → forces (.vmat v) (.resident v.toNat) none Blame.zero) ∧
    ((x.ty = 8 ∨ x.ty = 9 ∨ (x.ty = 2 ∧ q = 0)) → remoteFault s (rd s a) (tyBytes x.ty) = none →
      forces (.rred v a q k) (.remote (rd s a) (s.t.a.q[q.toNat]'(q.isLt))) (maskOf s.t.a k)
        { kind := 2, pos := 0, pc := s.t.a.pc }) ∧
    (∀ l, x.pending = true → allotAll s.t.a (usedRegions s.t.a) [v.toNat] = some l →
      overflowCut s.t.a (captureSinks s.t.a l) = [] → Answers (.force v) s fun t =>
      (∃ p, t.t.pass = some p ∧ p.sinks = captureSinks s.t.a l ∧ p.fpc = s.t.a.pc ∧ p.completes = true) ∧
      sameRegs u t ∧ Keeps [.pass, .share] u t)) ∧
  (∀ (s : State) (v a b n : Reg) (k : BitVec 3) (ty : BitVec 4),
    let t0 := ty.toNat
    let w := tyBytes t0
    let x := vreg s.t.a v
    let u := closedAfter s
    let sink (kind : SinkKind) (regs : List Nat) : Sink :=
      { kind := kind, srcs := regs.map (regVal s.t.a), len := x.len, mask := maskOf s.t.a k,
        blame := { kind := 2, pos := 0, pc := s.t.a.pc } }
    let clear (kind : SinkKind) (regs : List Nat) (ext : Extent) (haz : Leaf → Bool) : Prop :=
      dependents s.t.a (fun l => l.extent.meets 4096 ext) = [] ∧ overflowCut s.t.a [sink kind regs] = [] ∧
      ∀ l ∈ leavesOf s.t.a (sink kind regs).vals, haz l = false
    let forces (i : Instr) (kind : SinkKind) (regs : List Nat) : Prop := Answers i s fun t =>
      (∃ p, t.t.pass = some p ∧ p.sinks = [sink kind regs] ∧
        p.len = x.len ∧ p.fpc = s.t.a.pc ∧ p.completes = true) ∧
      sameRegs u t ∧ t.t.a.pc = u.t.a.pc ∧ Keeps [.pass, .share, .bases] u t
    let stores (i : Instr) (lay : Layout) (regs : List Nat) : Prop :=
      clear (.store (rd s a) lay) regs (extentOf (rd s a) lay t0 x.len) (fun l => hazard l (rd s a) lay t0 x.len) →
      forces i (.store (rd s a) lay) regs
    let scatters (i : Instr) (op : RedOp) : Prop := tyInt (vreg s.t.a b).ty = true →
      clear (.scatter op (rd s a) (vreg s.t.a b)) [v.toNat] (if x.len = 0 then .empty else tcmWindow)
        (fun l => decide (x.len ≠ 0) && l.extent.meets 1 tcmWindow) →
      forces i (.scatter op (rd s a) (vreg s.t.a b)) [v.toNat]
    onComputeCore s → s.t.a.inner = [] → (rd s a).toNat % w = 0 →
    (x.ty = t0 →
      stores (.vst v a k ty) .unit [v.toNat] ∧
      ((rd s b).toNat % w = 0 → stores (.vsts v a b k ty) (.strided (rd s b)) [v.toNat]) ∧
      (tyInt (vreg s.t.a b).ty = true → stores (.vstx v a b k ty) (.indexed (vreg s.t.a b)) [v.toNat]) ∧
      scatters (.vscrAdd v a b k ty) .add ∧ scatters (.vscrMin v a b k ty) .min ∧ scatters (.vscrMax v a b k ty) .max ∧
      scatters (.vscrAnd v a b k ty) .and ∧ scatters (.vscrOr v a b k ty) .or ∧ scatters (.vscrXor v a b k ty) .xor) ∧
    ((∀ r ∈ segRegs v n, (regVal s.t.a r).ty = t0) → stores (.vstseg v a n k ty) (.seg n.toNat) (segRegs v n)) ∧
    ∀ (u' : State) (rec : Nat), let r := shapeOf rec
      x.ty = t0 → (rd s b).toNat % 64 = 0 → loadNat s (rd s b) 64 = (u', .ok rec) → badStride r w = none →
      let y := vreg u'.t.a v
      let len := min y.len r.size
      let kind : SinkKind := .store (rd u' a) (.shape r)
      let sink : Sink := { kind := kind, srcs := [regVal u'.t.a v.toNat], len := len, mask := maskOf u'.t.a k,
                           blame := { kind := 2, pos := 0, pc := u'.t.a.pc } }
      dependents u'.t.a (fun l => l.extent.meets 4096 (extentOf (rd u' a) (.shape r) t0 len)) = [] →
      overflowCut u'.t.a [sink] = [] → (∀ l ∈ leavesOf u'.t.a sink.vals, hazard l (rd u' a) (.shape r) t0 len = false) →
      Answers (.vstt v a b k ty) s fun t =>
        (∃ p, t.t.pass = some p ∧ p.sinks = [sink] ∧ p.len = len ∧ p.fpc = u'.t.a.pc ∧ p.completes = true) ∧
        Keeps [.pass, .share, .bases] (closedAfter u') t)

/-- R148, R203, R216, R217, R220, R221: the events of a pass whose core is up, with no chunk of an earlier pass still to commit. A pass with no
group left whose lanes are done ends: its instruction's destination is written, VRS becomes zero, and the instruction completes, or runs again
where the pass only prepared it. The next group is that of the cluster which issues next (the model's order of the clusters, log entry 33), and what
it leaves behind by more than a cluster may lead runs. One that the masks exclude is passed over and leaves the chunk's count of instructions as it was
(the model's choice, log entry 107); and one that completes, neither excluded nor held, enters the pass's chunk. -/
def Obligations.PassesEnd : Prop :=
  ∀ (s : State) (tid : Nat) (p : Pass), let u := switchTo s tid
    u.t.pass = some p → u.t.redo = none → p.watch = [] → coreUp s (coreOf tid) →
    (p.open = [] → passDue u p = 0 →
      (ActsAs tid (.pass tid) s fun _ t => t.t.pass = none ∧ t.t.a.vrs = Vector.replicate 4 0 ∧
        (p.completes = true → t.t.a.pc = (p.fpc + 4) % 2 ^ 64) ∧
        ∀ op d k, p.sinks = [k] → k.kind = .reduce op d false → d ≠ 0 →
          rd t d = redWord (k.srcs.headD Val.empty).ty (redValue op (k.srcs.headD Val.empty).ty p.ftz p.st).1) ∧
      (p.completes = false → ActsAs tid (.capturePass tid) s fun _ t => t.t.pass = none ∧ t.t.a.vrs = Vector.replicate 4 0)) ∧
    ∀ c, pickFor u p = some c →
      let first := p.at c
      let slips := slipsIn u.t.a p
      let at_ := p.nextAt slips c
      let p0 := { p with clock := if slips then at_ else p.clock, lost := p.lost.setIfInBounds c (p.lost.toList.getD c 0 + ceilDiv (at_ - p.issueAt c) 12) }
      let k := max 1 (clustersHeld u)
      let n := min 16 (p.len - first)
      let sc := passChunk u p0
      let rm := readMasks u p0 sc.2
      let q := rm.1
      let z := q.slide slips k c
      let enters (x : State) (f : BitVec 6) (c1 : Chunk) (p1 : Pass) : Prop :=
        let v := modT (raise x f) fun t => { t with sealed := some c1, pass := some p1 }
        passFull v c1 p1 = false → x.c.lcNext = none → ActsAs tid (.elementGroupCompletion tid) s fun _ t => t = v
      holdsCluster u = true → u.t.passEffort.wanted = [] →
      (q.skips first = true → enters sc.1 0 rm.2 (z.after k c (z.tally.skip (z.place k c first)) false)) ∧
      ∀ w : Work, let g := planOf u.t.a q
        let els := w.els.reverse
        let c1 := w.close q first
        q.skips first = false →
        runElems (Work.start sc.1 rm.2 q.st g.nodes none) q g.parts g.nodes g.side g.caps first n = .ok w →
        passCapacity u c1 = false → passOutside u c1 = false → holdsGroup q u.t.a.cmpthr.toNat els = false →
        groupWatch w.s q first n w.seen = none →
        let y := { z with st := w.st, lost := z.lost.setIfInBounds c (z.lost.toList.getD c 0 + bankWaits w.seen) }
        enters w.s w.fl c1 (y.after k c (tallyGroup k y g.nodes u.t.a.cmpthr.toNat first els) (!q.xq))

/-- R142, R144, R145: a WEAVE whose block is sound and for whose nodes there is room appends them to the pending graph and completes; no
register and no byte of memory that the fetch of its block has not touched changes. -/
def Obligations.WeaveAppends : Prop :=
  ∀ (s u1 u2 : State) (o : BitVec 21) (h : Word) (words : List Nat),
    let block := wd (relTarget s.t.a.pc o.toInt)
    let n := ef h.toNat 51 5 + 1
    onComputeCore s → block.toNat % 8 = 0 → fetchWord s block = (u1, .ok h) → headerOk h.toNat = true →
    fetchWords u1 (block + 8) (n + 1) = (u2, words, none) → blockDefect h.toNat words = none → u2.t.a.nodes.length + n ≤ 64 →
    Answers (.weave o) s fun t =>
      t.t.a.v = (appendBlock u2.t.a h.toNat (words.take n)).v ∧ t.t.a.m = (appendBlock u2.t.a h.toNat (words.take n)).m ∧
      t.t.a.nodes = (appendBlock u2.t.a h.toNat (words.take n)).nodes ∧
      sameRegs s t ∧ follows s t ∧ Keeps [.vec, .pc, .count] u2 t

/-- R226, R231: MLDW takes a slot for the thread, with the tile's type and scale, once the thread's last pass has committed (R232) and the steps
in the array are over and none of the thread's has failed its check (R242); its body streams in. A chunk of the thread that has loaded the slot commits first, and for one of the sibling's the instruction waits. -/
def Obligations.TileLoads : Prop :=
  ∀ (s : State) (i : BitVec 1) (a : Reg) (ty : BitVec 4),
    let va := rd s a
    let mine := s.t.chunk.slots.any fun p => p.1 == i.toNat
    let theirs := loadsSlot (threadAt s (siblingOf s.cur)) i.toNat
    onComputeCore s → va.toNat % 64 = 0 →
    (mine = true → rd (commitOpen s) a = va → exec (.mldw i a ty) s = exec (.mldw i a ty) (commitOpen s)) ∧
    (loadsSlot s.t i.toNat = false → theirs = true → Answers (.mldw i a ty) s fun t => t.t.stall = .slot i.toNat ∧ Keeps [.stall] s t) ∧
    ∀ (u1 u2 : State) (k h : Nat) (l : List Nat), let form := h / 2 ^ 32 % 256
      let w := drainCore u2
      loadsSlot s.t i.toNat = false → theirs = false → imageHead (settleSealed s) va = (u1, .ok (k, h)) → formOk form ty.toNat = true →
      imagePlaces u1 (va + 64) (bodySize form ty.toNat / 64) = (u2, .ok l) → checkFailed u2 w = false →
      Answers (.mldw i a ty) s fun t =>
        (slotOf t.c i.toNat).owner = some w.cur ∧ (slotOf t.c i.toNat).ty = ty.toNat ∧
        (slotOf t.c i.toNat).scale = BitVec.ofNat 32 h ∧ (slotOf t.c i.toNat).poison = none ∧
        (slotOf t.c i.toNat).loading.isSome = true ∧ slotOf t.c (1 - i.toNat) = slotOf w.c (1 - i.toNat) ∧
        t.t.chunk.slots = (i.toNat, slotOf w.c i.toNat) :: w.t.chunk.slots ∧
        t.agenda = w.agenda ++ [.event (.tileLoadCompletion (coreOf w.cur) i.toNat)] ∧
        sameRegs w t ∧ follows w t ∧ Keeps [.weights, .pc, .count] w t

/-- R233, R236: MROW and MSLIDE whose rows the thread holds and whose slot is its own and of the second type enter one step for each row
into the array; the step of row t takes the activation's elements from t on. R238 to R240: MZERO of no rows has no effect, and otherwise
zeroes the rows that it names once the thread's steps are over, and no other. R276: one of more than 32 rows is a chunk of its own. R242: of an
instruction that waits for steps this is said where none of them fails its check. MREAD rounds a tile row into a register; MSCALE sets a
scale register. -/
def Obligations.MatrixRows : Prop :=
  (∀ (s : State) (v a : Reg) (n u : BitVec 2) (i : BitVec 1) (q : BitVec 3) (ty : BitVec 4),
    let x := vreg s.t.a v
    let depth := tileDepth ty.toNat
    let g := 128 * n.toNat + (rd s a).toNat
    let sl := finishLoad (slotOf s.c i.toNat)
    let step (r : State) (acc : Bool) (t : Nat) : MatStep :=
      { tid := r.cur, pc := r.t.a.pc, row := g + t, act := (x.lanes.drop t).take depth, ty := ty.toNat, slot := i.toNat,
        scale := r.t.a.q[q.toNat]'(q.isLt), acc := acc, num := r.t.chunk.num }
    let entered (r t : State) (acc : Bool) (count : Nat) : Prop :=
      t.c.mat = r.c.mat ++ (List.range count).map (step r acc) ∧ sameRegs r t ∧ follows r t ∧ Keeps [.array, .bad, .pc, .count] r t
    let enters (j : Instr) (acc : Bool) (count : Nat) : Prop :=
      holdsRows s g count = true →
      matrixError s (if acc then (List.range count).map (g + ·) else []) (if ty.toNat < 8 then none else some q.toNat) = none →
      (count ≤ 32 → Answers j s fun t => entered s t acc count) ∧
      (32 < count → Answers j s fun t => ∃ y, t = commitOpen y ∧ entered (commitOpen s) y acc count)
    onComputeCore s → x.resident = true → x.len ≤ residentLimit x.ty → x.ty = ty.toNat → (rd s a).toNat < 128 →
    sl.owner = some s.cur → sl.ty = secondType ty.toNat u → sl.poison = none →
    enters (.mrow v a n i u q ty) false 1 ∧ enters (.mrowAcc v a n i u q ty) true 1 ∧
    enters (.mslide v a n i u q ty) false (max 1 (x.len + 1 - depth)) ∧
    enters (.mslideAcc v a n i u q ty) true (max 1 (x.len + 1 - depth))) ∧
  (∀ (s : State) (v a b : Reg) (n q : BitVec 2) (i : BitVec 1) (q3 r : BitVec 3) (ty : BitVec 4),
    let count := (rd s b).toNat
    let g := 128 * n.toNat + (rd s a).toNat
    let u := drainMatrix s
    onComputeCore s →
    (count = 0 → Answers (.mzero n a b) s fun t => follows s t ∧ sameRegs s t ∧ Keeps [.pc, .count] s t) ∧
    (0 < count → count ≤ 32 → (rd s a).toNat < 128 → holdsRows s g count = true → Sorted u → checkFailed s u = false →
      Answers (.mzero n a b) s fun t => (∀ j < count, tileRow t.c (g + j) = List.replicate 128 0) ∧
      (∀ r, (r < g ∨ g + count ≤ r) → tileRow t.c r = tileRow u.c r) ∧ sameRegs u t ∧ follows u t ∧
      Keeps [.tiles, .bad, .pc, .count] u t) ∧
    (32 < count → (rd s a).toNat < 128 → holdsRows s g count = true → let v := drainMatrix (commitOpen s)
      checkFailed (commitOpen s) v = false → Answers (.mzero n a b) s fun t => ∃ y, t = commitOpen y ∧ (∀ j < count, tileRow y.c (g + j) = List.replicate 128 0) ∧
        (∀ r, (r < g ∨ g + count ≤ r) → Sorted v → tileRow y.c r = tileRow v.c r) ∧ sameRegs v y ∧ follows v y ∧
        Keeps [.tiles, .bad, .pc, .count] v y) ∧
    (let j : Nat := q.toNat
     (rd s a).toNat < 128 → holdsRow s g = true → matrixError s [g] (some j) = none → checkFailed s u = false →
      Answers (.mread v a n i q r ty) s fun t =>
        let mode := if r.toNat ≠ 7 then r.toNat
          else if tyFloat ty.toNat then u.t.a.fctl.toNat % 8 else u.t.a.fxrm.toNat
        let els := (tileRow u.c g).map (readElem ty.toNat mode (i == 1) (u.t.a.q.toList.getD j 0))
        vreg t.t.a v = residentVal ty.toNat (els.map Prod.fst) ∧
        t.t.a.fstat = u.t.a.fstat ||| els.foldl (fun f e => f ||| e.2) 0 ∧ sameRegs u t ∧ follows u t ∧
        Keeps [.vec, .fstat, .pc, .count] u t) ∧
    Answers (.mscale q3 a) s fun t =>
      t.t.a.q = s.t.a.q.set q3.toNat ((rd s a).setWidth 32) q3.isLt ∧ sameRegs s t ∧ follows s t ∧
      Keeps [.scale, .bad, .pc, .count] s t)

/-- R253, R257, R258: where the flag is free and the core has room, ACOPY and ACOPYT clear the flag, mark its status word as
outstanding and leave the operation to begin when their chunk commits; otherwise they wait. Shape records of ACOPYT that are not aligned
trap. -/
def Obligations.CopiesAreIssued : Prop :=
  ∀ (s : State) (d a b : Reg) (k : BitVec 4),
    let issues (u t : State) (o : EngineOp) : Prop :=
      t.engines = u.engines ++ [o] ∧ t.t.a.done = u.t.a.done &&& ~~~(BitVec.ofNat 16 (2 ^ k.toNat)) ∧
      t.t.a.efault = u.t.a.efault &&& ~~~(BitVec.ofNat 16 (2 ^ k.toNat)) ∧
      t.t.a.evs = u.t.a.evs.set k.toNat (BitVec.ofNat 64 (14 * 2 ^ 60)) k.isLt ∧
      t.t.chunk.out = u.t.chunk.out ++ [.engine u.cur k.toNat] ∧ sameRegs u t ∧ follows u t ∧
      Keeps [.engines, .events, .out, .pc, .count] u t
    let op (u : State) (n : Nat) (sh : Option (Shape × Shape)) : EngineOp :=
      { tid := u.cur, k := k.toNat, src := rd u a, dst := rd u d, count := n, shapes := sh, go := false, result := none, pos := 0,
        chunks := 0, chunk := none, was := [], effort := Effort.zero }
    (engineBusy s k.toNat = true → Answers (.acopy d a b k) s fun t => t.t.stall = .engine k.toNat ∧ Keeps [.stall] s t) ∧
    (engineBusy s k.toNat = false → Answers (.acopy d a b k) s fun t =>
      issues s t (op s (rd s b).toNat none)) ∧
    ((rd s b).toNat % 128 ≠ 0 → exec (.acopyt d a b k) s = .next (takeTrap s (plainTrap 2 (rd s b)) s.t.a.pc false false false)) ∧
    ((rd s b).toNat % 128 = 0 → engineBusy s k.toNat = true → Answers (.acopyt d a b k) s fun t =>
      t.t.stall = .engine k.toNat ∧ Keeps [.stall] s t) ∧
    ∀ (u1 u2 : State) (v w : Nat), (rd s b).toNat % 128 = 0 → engineBusy s k.toNat = false →
      loadNat s (rd s b) 64 = (u1, .ok v) → loadNat u1 (rd u1 b + 64) 64 = (u2, .ok w) → Answers (.acopyt d a b k) s fun t =>
        issues u2 t (op u2 0 (some (shapeOf v, shapeOf w)))

/-- R254, R255, R260 to R262: EVWAIT delivers the status word of a flag that is set, stalls while its operation is outstanding, and
without one reports that; EVCLR takes the word and clears the flag, unless it is outstanding; BEV branches on a bit of DONE or FAULT. -/
def Obligations.EventFlags : Prop :=
  ∀ (s : State) (d kr c : Reg) (k : BitVec 4) (o : BitVec 16),
    let done := s.t.a.done.getLsbD k.toNat
    let out := (outstanding s).contains k.toNat
    let word := s.t.a.evs[k.toNat]'(k.isLt)
    (done = true → Answers (.evwait d k) s fun t => WroteReg s t d word) ∧
    (done = false → out = true → Answers (.evwait d k) s fun t => t.t.stall = .evwait k.toNat ∧ Keeps [.stall] s t) ∧
    (done = false → out = false → Answers (.evwait d k) s fun t => WroteReg s t d (BitVec.ofNat 64 (15 * 2 ^ 60))) ∧
    (out = true → Answers (.evclr d k) s fun t => WroteReg s t d (BitVec.ofNat 64 (14 * 2 ^ 60))) ∧
    (out = false → Answers (.evclr d k) s fun t => puts s t d word ∧ t.t.a.done.getLsbD k.toNat = false ∧
      t.t.a.efault.getLsbD k.toNat = false ∧ t.t.a.evs = s.t.a.evs.set k.toNat 0 k.isLt ∧
      (∀ j < 16, j ≠ k.toNat → t.t.a.done.getLsbD j = s.t.a.done.getLsbD j ∧ t.t.a.efault.getLsbD j = s.t.a.efault.getLsbD j) ∧
      follows s t ∧ Keeps [.x, .events, .pc, .count] s t) ∧
    let bits := if c.toNat < 2 then s.t.a.done else s.t.a.efault
    (bits.getLsbD kr.toNat = decide (c.toNat % 2 = 0) → Answers (.bev kr c o) s fun t =>
      Jumped s t (((s.t.a.pc : Int) + 4 * o.toInt) % 2 ^ 64).toNat) ∧
    (bits.getLsbD kr.toNat ≠ decide (c.toNat % 2 = 0) → Answers (.bev kr c o) s fun t =>
      follows s t ∧ sameRegs s t ∧ Keeps [.pc, .count] s t)

/-- R49, R268, R269: UIRET outside a user-interrupt handler is illegal; inside one it commits the chunk, restores x28 to x31 and goes back
to UIPC. ICINV commits its chunk and drops the code words of the lines that it names; a range of no bytes drops none, and one of more
than 16 MiB drops all. -/
def Obligations.HandlersAndCode : Prop :=
  ∀ (s : State) (a b : Reg), let u := closedAfter s
    (s.t.a.uiactive = false → exec .uiret s = .next (illegal s (encode .uiret))) ∧
    (s.t.a.uiactive = true → Answers .uiret s fun t =>
      (∀ i < 4, rd t (BitVec.ofNat 5 (28 + i)) = u.t.a.shadow.toList.getD i 0) ∧ (∀ r : Reg, r.toNat < 28 → rd t r = rd u r) ∧
      t.t.a.uiactive = false ∧ t.t.a.pc = u.t.a.uipc.toNat ∧ Keeps [.x, .pc, .ui, .ckpt] u t) ∧
    Answers (.icinv a b) s fun t =>
      ((rd s b).toNat = 0 → t.c.icache = u.c.icache) ∧ (16777216 < (rd s b).toNat → t.c.icache = []) ∧
      (∀ e ∈ t.c.icache, e ∈ u.c.icache ∧ (0 < (rd s b).toNat → (rd s b).toNat ≤ 16777216 →
        ∀ r ∈ codeRanges u (rd s a).toNat (rd s b).toNat, e.1 < r.1 ∨ r.2 < e.1)) ∧
      sameRegs u t ∧ follows u t ∧ Keeps [.code, .pc, .ckpt] u t

/-- R46, R311, R313, R316: PANPOST's status by its checks in order, and the TID of a panel that it posts: an entry is taken, with TENANT
the posting VFID, and a message to post it leaves with its chunk. Every earlier pass has committed. A descriptor that is not aligned and a queue of another VF trap. -/
def Obligations.PanelsArePosted : Prop :=
  ∀ (s u u0 : State) (d a b : Reg) (bytes : List Byte) (q : Nat),
    let gives (v : Word) : Prop := Answers (.panpost d a b) s fun t => WroteReg u t d v
    ((rd s b).toNat % 64 ≠ 0 → exec (.panpost d a b) s = .next (takeTrap s (plainTrap 2 (rd s b)) s.t.a.pc false false false)) ∧
    ((rd s b).toNat % 64 = 0 → loadLines s (rd s b) 2 = (u0, .ok bytes) → u = settleSealed u0 → quiet u →
    (localQueue (rd u a) = none → gives (-2)) ∧
    (localQueue (rd u a) = some q → qOwner u q ≠ u.t.vfid →
      exec (.panpost d a b) s = .next (trapHere u 4 (rd u a))) ∧
    (localQueue (rd u a) = some q → qOwner u q = u.t.vfid →
      (qKind u q = 1 → gives (-3)) ∧
      (qKind u q ≠ 1 → descValid u bytes = false → gives (-5)) ∧
      (qKind u q ≠ 1 → descValid u bytes = true → (qCap u q ≤ qHeld u q ∨ 65536 ≤ poolUsed u) → gives (-1)) ∧
      (qKind u q ≠ 1 → descValid u bytes = true → qHeld u q < qCap u q → poolUsed u < 65536 →
        Answers (.panpost d a b) s fun t => ∃ p : Panel, t.panels = u.panels ++ [p] ∧ p.queue = q ∧ p.posted = false ∧
          p.seq = u.nextSeq ∧ p.desc = bytes.take 82 ++ leBytes 2 u.t.vfid ++ bytes.drop 84 ∧
          puts u t d (BitVec.ofNat 64 p.tid) ∧ t.t.chunk.out = u.t.chunk.out ++ [.post p.tid] ∧ follows u t ∧
          Keeps [.x, .pc, .count, .panels, .out] u t)))

/-- R311, R324, R329: WMPUB, DEPSET and DEPDEC of a slot or counter of the thread's own VF leave with their chunk, every earlier pass having
committed; those of another trap as permission with the index. -/
def Obligations.TaskMessages : Prop :=
  ∀ (s : State) (a b : Reg), let i := rd s a
    let u := settleSealed s
    let sends (j : Instr) (m : Msg) : Prop := Answers j s fun t =>
      t.t.chunk.out = u.t.chunk.out ++ [m] ∧ sameRegs u t ∧ follows u t ∧ Keeps [.out, .pc, .count] u t
    let slot := i.toNat < 4096 ∧ slotOwner s i.toNat = s.t.vfid
    let counter := i.toNat < 16384 ∧ counterOwner s i.toNat = s.t.vfid
    (slot → sends (.wmpub a b) (.wmpub i.toNat (rd s b))) ∧
    (counter → sends (.depset a b) (.depset i.toNat ((rd s b).setWidth 32)) ∧ sends (.depdec a) (.depdec i.toNat)) ∧
    (¬slot → exec (.wmpub a b) s = .next (trapHere s 4 i)) ∧
    (¬counter → exec (.depset a b) s = .next (trapHere s 4 i) ∧ exec (.depdec a) s = .next (trapHere s 4 i))

/-- R318 to R322, R378: PANGET, which first commits its thread's chunks, again where a write of a device register is among them: its
status without a grant, in the order of its checks; the four results of a grant from a panel of the requester's die, with a descriptor copy
or without; and the wait where only other dies have panels. PANDONE retires a grant that the thread holds and is illegal on any other. -/
def Obligations.PanelGrants : Prop :=
  ∀ (s : State) (d a b : Reg), let u := modT (commitOpen s) fun t => { t with stall := .none }
    let status (v : Word) (w : State) : Prop := Answers (.panget d a b) s fun t => ∃ x, t = rebase (commitOpen x) ∧
      rd x d = v ∧ rd x (d + 1) = 0 ∧ rd x (d + 2) = 0 ∧ rd x (d + 3) = 0 ∧
      (∀ r : Reg, (r.toNat < d.toNat ∨ d.toNat + 4 ≤ r.toNat) → rd x r = rd w r) ∧ follows w x ∧ x.t.grants = w.t.grants
    let named (g : Grant) : Prop := BitVec.ofNat 64 g.row0 = rd s d ∧ BitVec.ofNat 64 g.col0 = rd s (d + 1) ∧
      BitVec.ofNat 64 g.rows = rd s (d + 2) ∧ BitVec.ofNat 64 g.cols = rd s (d + 3)
    0 < d.toNat → d.toNat ≤ 28 →
    (¬noDevWrites s → exec (.panget d a b) s = .next (commitOpen s)) ∧
    (noDevWrites s → quiet u →
      (localQueue (rd u a) = none → status 3 u) ∧
      ∀ q, localQueue (rd u a) = some q →
        (qOwner u q ≠ u.t.vfid → exec (.panget d a b) s = .next (trapHere u 4 (rd u a))) ∧
        (qOwner u q = u.t.vfid → let w := renegotiateNow u
          let copies : Prop := (rd w b).toNat % 64 = 0 ∧ writable128 w (rd w b) = none ∧ overlapped w (rd w b) 128 = []
          (qKind u q = 1 → status 3 u) ∧
          (qKind u q ≠ 1 → 4 ≤ u.t.grants.length → status 1 u) ∧
          (qKind u q ≠ 1 → u.t.grants.length < 4 → b ≠ 0 → (rd w b).toNat % 64 ≠ 0 →
            exec (.panget d a b) s = .next (trapHere w 2 (rd w b))) ∧
          (qKind u q ≠ 1 → u.t.grants.length < 4 → (b = 0 ∨ copies) →
            (pickPanel w q w.cur (ownDie w q) = none → status 0 w) ∧
            ∀ p, (pickPanel w q w.cur (ownDie w q) = some (p, false) → Answers (.panget d a b) s fun t =>
                t.t.stall = .panget 1024 ∧ Keeps [.stall] w t) ∧
              (pickPanel w q w.cur (ownDie w q) = some (p, true) → let n := grantRows p w.c.fcur (rowsHeld w)
                (n = 0 → status 2 w) ∧
                (n ≠ 0 → Answers (.panget d a b) s fun t => ∃ x, t = rebase (commitOpen x) ∧
                  let g := (takeGrant w p n).2
                  rd x d = BitVec.ofNat 64 g.row0 ∧ rd x (d + 1) = BitVec.ofNat 64 g.col0 ∧
                  rd x (d + 2) = BitVec.ofNat 64 g.rows ∧ rd x (d + 3) = BitVec.ofNat 64 g.cols ∧
                  x.t.grants.length = w.t.grants.length + 1 ∧ x.t.a.pc = (w.t.a.pc + 4) % 2 ^ 64))))) ∧
    ((∃ g ∈ s.t.grants, named g) → Answers (.pandone d) s fun t => ∃ g ∈ s.t.grants, named g ∧
      t.t.grants = (settleSealed (commitOpen s)).t.grants.erase g ∧ sameRegs (settleSealed (commitOpen s)) t ∧
      follows (settleSealed (commitOpen s)) t) ∧
    ((∀ g ∈ s.t.grants, ¬named g) → exec (.pandone d) s = .next (illegal s (encode (.pandone d))))

/-- R311, R325: QSEND. Status 2 for a malformed queue or one with which the VF is not registered, 3 for a panel queue; with a place the item
leaves with its chunk, every earlier pass having committed, and the status is 0; without one QSEND.NB reports 1 and the others wait. QSEND.A commits its chunk; a local queue
answers at once, and for one of another module it waits for the answer. A local queue of another VF traps. -/
def Obligations.ItemsAreSent : Prop :=
  ∀ (s : State) (d a b : Reg), let q := rd s a
    let refused (v : Word) (i : Instr) : Prop := qsendRefused s q = some v → Answers i s fun t => WroteReg s t d v
    let z := settleSealed s
    let item : Msg := match localQueue q with
      | some n => .item n (rd z b) (rd z (b + 1)) none
      | none => .remoteItem z.cur z.t.vfid q.toNat (rd z b) (rd z (b + 1)) false
    let sends (i : Instr) : Prop := Answers i s fun t => puts z t d 0 ∧ follows z t ∧
      t.t.chunk.out = z.t.chunk.out ++ [item] ∧ Keeps [.x, .out, .pc, .count] z t
    let waits (i : Instr) : Prop := Answers i s fun t => t.t.stall = .qsend q.toNat ∧ Keeps [.stall] s t
    (∀ n, localQueue q = some n → qOwner s n ≠ s.t.vfid →
      ∀ i ∈ [Instr.qsend d a b, .qsendNb d a b, .qsendA d a b], exec i s = .next (trapHere s 4 q)) ∧
    (quiet s → (∀ n, localQueue q = some n → qOwner s n = s.t.vfid) →
      (∀ v, refused v (.qsend d a b) ∧ refused v (.qsendNb d a b) ∧ refused v (.qsendA d a b)) ∧
      (qsendRefused s q = none → placeFree s q = true → sends (.qsend d a b) ∧ sends (.qsendNb d a b)) ∧
      (qsendRefused s q = none → placeFree s q = false → waits (.qsend d a b) ∧ waits (.qsendA d a b) ∧
        Answers (.qsendNb d a b) s fun t => WroteReg s t d 1) ∧
      (∀ n, localQueue q = some n → qsendRefused s q = none → placeFree s q = true →
        let u := closedAfter (queueMsg z (.item n (rd z b) (rd z (b + 1)) none))
        quiet u → Answers (.qsendA d a b) s fun t => puts u t d 0 ∧ follows s t ∧ Keeps [.x, .pc, .ckpt] u t) ∧
      (localQueue q = none → qsendRefused s q = none → placeFree s q = true →
        let u := closedAfter (queueMsg z (.remoteItem z.cur z.t.vfid q.toNat (rd z b) (rd z (b + 1)) true))
        Answers (.qsendA d a b) s fun t => t.t.stall = .answer d ∧ Keeps [.stall] u t))

/-- R311, R326, R378: QTAKE of a local item queue of the thread's VF takes the oldest item, reports an empty queue as 1, and a panel queue
or another module's as 3; a queue of another VF traps. It commits the thread's chunks first, again where a write of a device register is
among them, and is a chunk of its own. -/
def Obligations.ItemsAreTaken : Prop :=
  ∀ (s : State) (d a b : Reg), let u := commitOpen s
    let takes (P : State → Prop) : Prop := Answers (.qtake d a b) s fun t => ∃ x, t = rebase (commitOpen x) ∧ follows u x ∧ P x
    let status (v : Word) : Prop := takes fun x => puts u x b v ∧ Keeps [.x, .pc, .count] u x
    0 < d.toNat → d.toNat ≤ 30 →
    (¬noDevWrites s → exec (.qtake d a b) s = .next (commitOpen s)) ∧
    (noDevWrites s → quiet u →
      (localQueue (rd u a) = none → status 3) ∧
      ∀ n, localQueue (rd u a) = some n →
        (qOwner u n ≠ u.t.vfid → exec (.qtake d a b) s = .next (trapHere u 4 (rd u a))) ∧
        (qOwner u n = u.t.vfid →
          (qKind u n = 0 → status 3) ∧
          (qKind u n ≠ 0 → qItems u n = [] → status 1) ∧
          ∀ it l, qKind u n ≠ 0 → qItems u n = it :: l → takes fun x =>
            (b ≠ d → rd x d = it.lo) ∧ (b ≠ d + 1 → rd x (d + 1) = it.hi) ∧ rd x b = 0 ∧
            (∀ r, r ≠ d → r ≠ d + 1 → r ≠ b → rd x r = rd u r) ∧
            x.items = (if l = [] then spDel u.items n else spPut u.items n l) ∧ Keeps [.x, .queues, .pc, .count] u x))

/-- R327, R328, R331: STRIP advances the recorded bases by the elements done, lowers its count, raises SC, and either falls through with
STE and VL at 0 or goes back with the next length of the strip. With a slot it first checks that the slot is its VF's; a bound that the
slot has reached holds nothing up; the form with no count only waits; and a poisoned slot traps. -/
def Obligations.StripAdvances : Prop :=
  ∀ (s : State) (d o b p : Reg),
    let n := s.t.a.vlLen
    let rem := (rd s d).toNat - min n (rd s d).toNat
    let len := min s.t.a.vlGrant rem
    let moved (t : State) : Prop :=
      (∀ e ∈ s.t.a.bases, rd t e.1 = rd s e.1 + BitVec.ofNat 64 n * e.2) ∧ rd t d = BitVec.ofNat 64 rem ∧
      (∀ r, r ≠ d → (∀ e ∈ s.t.a.bases, r ≠ e.1) → rd t r = rd s r) ∧ t.t.a.sc = s.t.a.sc + 1 ∧ t.t.a.bases = [] ∧
      Keeps [.x, .pc, .count, .vl, .bases, .strip, .trace] s t
    let slot := (rd s b).toNat
    let open_ (bound : Nat) : Prop := b ≠ 0 → slot < 4096 ∧ slotOwner s slot = s.t.vfid ∧
      (slotAt s slot).poison = false ∧ bound ≤ (slotAt s slot).val.toNat
    onComputeCore s → s.t.a.strip = [] → (s.t.a.bases.map Prod.fst).Nodup → (∀ e ∈ s.t.a.bases, e.1 ≠ 0 ∧ e.1 ≠ d) →
    (d ≠ 0 → rem = 0 → open_ 0 → Answers (.strip d o b p) s fun t =>
      moved t ∧ t.t.a.ste = 0 ∧ t.t.a.vlLen = 0 ∧ t.t.a.vlGrant = s.t.a.vlGrant ∧ follows s t) ∧
    (d ≠ 0 → rem ≠ 0 → open_ ((s.t.a.ste + n) % 2 ^ 64 + len) → Answers (.strip d o b p) s fun t =>
      moved t ∧ t.t.a.ste = (s.t.a.ste + n) % 2 ^ 64 ∧ t.t.a.vlLen = len ∧ t.t.a.vlGrant = s.t.a.vlGrant ∧
      t.t.a.pc = (((s.t.a.pc : Int) - 4 * (32 * o.toNat + p.toNat : Nat)) % 2 ^ 64).toNat) ∧
    (b ≠ 0 → open_ (s.t.a.ste + n) → Answers (.strip 0 0 b 0) s fun t =>
      sameRegs s t ∧ follows s t ∧ Keeps [.pc, .count] s t) ∧
    (b ≠ 0 → ¬(slot < 4096 ∧ slotOwner s slot = s.t.vfid) →
      exec (.strip d o b p) s = .next (trapHere s 4 (rd s b))) ∧
    (b ≠ 0 → slot < 4096 → slotOwner s slot = s.t.vfid → (slotAt s slot).poison = true →
      exec (.strip 0 0 b 0) s = .next (trapHere s 8 (BitVec.ofNat 64 slot)))

/-- R333, R335, R336: GJOIN creates a record, joins one, or reports that the thread is a member or in 8 groups already; GLEAVE leaves or
dissolves one, or reports that the thread is no member; no other record changes. Both commit their chunk first, again where a write of a
device register is uncommitted (R378); an identifier that is not the VF's traps. That a poisoned record is joined as another is, with status 1, and that a
member that is in 8 groups has status 2, are the model's choices (log entries 114 and 141). -/
def Obligations.GroupMembership : Prop :=
  ∀ (s : State) (d a : Reg), let u := closedAfter s
    let g := (rd s a).toNat
    let ap := u.t.a.sc.toInt - 1
    let me : Member := { tid := s.cur, ap := ap, away := none }
    let status (i : Instr) (v : Word) : Prop := Answers i s fun t => puts u t d v ∧ follows u t ∧ Keeps [.x, .pc, .ckpt] u t
    let acts (i : Instr) (v : Word) (r : Option Group) (l : List Nat) : Prop := Answers i s fun t =>
      puts u t d v ∧ follows u t ∧ t.t.groups = l ∧ groupAt t g = r ∧ (∀ h, h ≠ g → groupAt t h = groupAt s h) ∧
      Keeps [.x, .pc, .ckpt, .groups] u t
    (¬noDevWrites s → exec (.gjoin d a) s = .next (commitOpen s) ∧ exec (.gleave d a) s = .next (commitOpen s)) ∧
    (noDevWrites s → ¬(g < 4096 ∧ groupOwner s g = s.t.vfid) →
      exec (.gjoin d a) s = .next (trapHere s 4 (rd s a)) ∧ exec (.gleave d a) s = .next (trapHere s 4 (rd s a))) ∧
    (noDevWrites s → g < 4096 → groupOwner s g = s.t.vfid → quiet s → Rising s.groups →
    (isMember s g s.cur = true → status (.gjoin d a) 2) ∧
    (isMember s g s.cur = false → 8 ≤ s.t.groups.length → status (.gjoin d a) 3) ∧
    (isMember s g s.cur = false → s.t.groups.length < 8 →
      (groupAt s g = none → acts (.gjoin d a) 0 (some { owner := u.t.vfid, members := [me], cp := ap, log := [], record := none,
                                                        poison := false, rose := 0 }) (s.t.groups ++ [g])) ∧
      ∀ r, groupAt s g = some r →
        acts (.gjoin d a) 1 (some (recompute { r with members := r.members ++ [me] })) (s.t.groups ++ [g])) ∧
    (isMember s g s.cur = false → status (.gleave d a) 2) ∧
    ∀ r, isMember s g s.cur = true → groupAt s g = some r →
      let ms := r.members.filter fun m => !(m.tid == s.cur && m.away.isNone)
      let log := r.log.filter fun x => !(x.tid == s.cur && x.away.isNone)
      (ms = [] → acts (.gleave d a) 1 none (s.t.groups.filter (· != g))) ∧
      (ms ≠ [] → acts (.gleave d a) 0 (some (risen (reachesIod u u.cur) r.cp (recompute { r with members := ms, log := log }))) (s.t.groups.filter (· != g))))

/-- R334, R337 to R339, R342: with no write of a device register uncommitted, and a group of the thread's VF: BARA, every earlier pass having
committed, arrives at phase SC, reports that it arrives at nothing new or is no member, and is held while its phase is not open; BARW waits
until its phase is complete or every member has arrived; BARINFO reports a free record or one with no phase completed, and writes the
straggler record of one that has, in a chunk of its own (the model's choice, log entry 113); a poisoned record traps. -/
def Obligations.BarrierPhases : Prop :=
  ∀ (s : State) (d a b n : Reg), let u := closedAfter s
    let g := (rd s a).toNat
    let gives (y : State) (i : Instr) (v : Word) : Prop := Answers i s fun t => puts y t d v ∧ follows y t ∧ Keeps [.x, .pc, .ckpt] y t
    noDevWrites s → g < 4096 → groupOwner s g = s.t.vfid → quiet s →
    (groupBad s g = true → exec (.bara d a) s = .next (trapHere s 8 (BitVec.ofNat 64 g)) ∧
      exec (.barw d a n) s = .next (trapHere s 8 (BitVec.ofNat 64 g))) ∧
    (groupBad s g = false → let z := settleSealed s
      let y := closedAfter z
      let p := z.t.a.sc.toInt
      (groupAt z g = none → gives y (.bara d a) 2) ∧
      ∀ r, groupAt z g = some r →
        (memberAp r z.cur = none → gives y (.bara d a) 2) ∧
        ∀ ap, memberAp r z.cur = some ap →
          (p ≤ ap → gives y (.bara d a) 1) ∧
          (ap < p → p ≤ r.cp + 64 → Answers (.bara d a) s fun t => puts y t d 0 ∧ follows y t ∧
            t.groups = (acceptArrival y g y.cur y.c.fcur p).groups ∧
            Keeps [.x, .pc, .ckpt, .groups] (acceptArrival y g y.cur y.c.fcur p) t) ∧
          (ap < p → r.cp + 64 < p → Answers (.bara d a) s fun t => t.t.stall = .bara g p z.c.fcur d ∧ Keeps [.stall] y t)) ∧
    (groupBad s g = false → let p := s.t.a.sc.toInt
      (groupAt s g = none → gives u (.barw d a n) 2) ∧
      ∀ r, groupAt s g = some r →
        (isMember s g s.cur = false → gives u (.barw d a n) 2) ∧
        (isMember s g s.cur = true → allArrived r (p - n.toNat) = true → gives u (.barw d a n) 0) ∧
        (isMember s g s.cur = true → allArrived r (p - n.toNat) = false → Answers (.barw d a n) s fun t =>
          t.t.stall = .barw g (p - n.toNat) d ∧ Keeps [.stall] u t)) ∧
    ((rd s b).toNat % 64 = 0 → groupBad s g = false → writable128 s (rd s b) = none →
      (groupAt s g = none → gives u (.barinfo d a b) 2) ∧
      ∀ r, groupAt s g = some r →
        (r.record = none → gives u (.barinfo d a b) 1) ∧
        ∀ ph l w, r.record = some (ph, l) → overlapped s (rd s b) 128 = [] → writable128 u (rd s b) = none →
          store128 u (rd s b) (recordBytes ph l) = (w, none) → Answers (.barinfo d a b) s fun t =>
            ∃ x, t = rebase (commitOpen x) ∧ puts w x d 0 ∧ follows w x ∧ Keeps [.x, .pc] w x)

/-- R364, R366, R369, R372, R373: RST leaves with its chunk. RLD and RAMO commit the chunk before them, send their request and stall, a request to
the module itself being performed here in its turn where the route table has ports for it, and lost where it has none (the model's choices: log
entry 82, and log entry 12 for module number 0); where a write of a device register is uncommitted they commit it first; a response completes them, with its value in X[D], as a chunk of their own. An address
that is misaligned, malformed or of an absent module traps. -/
def Obligations.RemoteAccesses : Prop :=
  ∀ (s : State) (d a b : Reg) (sz : BitVec 2) (o : BitVec 3), let u := commitOpen s
    let w := 2 ^ sz.toNat
    let da := rd s a
    let off : Word := BitVec.ofNat 64 (da.toNat % 2 ^ 50)
    let bad (n c : Nat) (i : Instr) : Prop := remoteFault s da n = some c → exec i s = .next (trapHere s c da)
    let asks (i : Instr) (kind n : Nat) (x y : Word) (here : Instr) : Prop := remoteFault s da n = none → noDevWrites s → ∃ t, exec i s = .next t ∧
      t.t.stall = .remote d n da ∧ (let routed := fld (devGet u 0x40000C60000) 0 24 ≠ 0
        t.outbound = (if fld da 50 11 ≠ 0 ∨ routed then u.outbound ++ [.request u.cur da kind n x y] else u.outbound) ∧
        t.agenda = (if fld da 50 11 = 0 ∧ routed then u.agenda ++ [.own (.request u.cur da kind n x y) here] else u.agenda)) ∧
      Keeps [.stall, .queues, .agenda] u t ∧
      (quiet t → t.held = [] → coreUp t (coreOf t.cur) → ∀ v : Word, ActsAs t.cur (.remoteResponse t.cur 0 v) t fun t x => ∃ y,
        x = performNext t (portOf t (fld da 50 11)) (fun _ => rebase (commitOpen y)) ∧
        y.t.stall = .none ∧ puts t y d ((BitVec.ofNat (8 * n) v.toNat).signExtend 64) ∧ follows t y ∧ Keeps [.x, .pc, .count, .stall] t y)
    (∀ c, bad w c (.rld d a sz) ∧ bad w c (.rst d a sz) ∧ bad 8 c (.ramo d a b o)) ∧
    asks (.rld d a sz) 0 w 0 0 (.rldRequest 0 u.t.vfid off w) ∧
    asks (.ramo d a b o) (1 + o.toNat) 8 (rd s b) (rd s d) (.ramoRequest 0 u.t.vfid off o.toNat (rd s b) (rd s d)) ∧
    (remoteFault s da w = none → Answers (.rst d a sz) s fun t =>
      t.t.chunk.out = s.t.chunk.out ++ [.rst s.cur da w (BitVec.ofNat 64 ((rd s d).toNat % 2 ^ (8 * w)))] ∧
      sameRegs s t ∧ follows s t ∧ Keeps [.out, .pc, .count] s t) ∧
    (remoteFault s da w = some 2 ↔ da.toNat % 2 ^ 50 % w ≠ 0)

/-- R385, R387, R396: ECALL, HCALL, TRAP and BRK take the traps of their causes, with the next instruction to resume at, once every chunk of the
thread, the last one of a completed pass among them, has committed. From U, and from S
outside a handler, ECALL, TRAP and BRK enter S: the pc, the level, the interrupt enable and the cause are saved, TVEC is where control
goes, and no register changes. HCALL enters H, and so does each of them at H outside a handler. -/
def Obligations.CallsEnterHandlers : Prop :=
  ∀ (s : State) (a : Reg), let c := commitOpen s
    let u := commitOpen (commitSealed c)
    let pc := c.t.a.pc
    let bits (p : Nat) : Word := BitVec.ofNat 64 (p % 2 ^ 52 / 4 * 4)
    let status (t old : BitVec 8) (lvl : Level) : Prop := t.toNat % 4 = lvl.code ∧ t.getLsbD 7 = true ∧
      t.getLsbD 6 = old.getLsbD 5 ∧ t.getLsbD 5 = false ∧ t.getLsbD 4 = false
    let toS (i : Instr) (cause : Nat) (addr : Word) : Prop :=
      u.t.lvl ≠ .h → nested u.t.tstatus = false → Answers i s fun t =>
        t.t.lvl = .s ∧ t.t.a.pc = u.t.tvec.toNat ∧ t.t.trappc = bits (pc + 4) ∧ t.t.trapcause = BitVec.ofNat 8 cause ∧
        t.t.trapaddr = addr ∧ t.t.trapblame = 0 ∧ t.t.trapstream = 0 ∧ status t.t.tstatus u.t.tstatus u.t.lvl ∧
        sameRegs u t ∧ t.t.htrappc = u.t.htrappc ∧ t.t.hstatus = u.t.hstatus ∧ ∀ k, viewByte t k = viewByte u k
    let toH (i : Instr) (cause : Nat) (addr : Word) : Prop :=
      nested u.t.hstatus = false → Answers i s fun t =>
        t.t.lvl = .h ∧ t.t.a.pc = u.t.hvec.toNat ∧ t.t.htrappc = bits (pc + 4) ∧ t.t.htrapcause = BitVec.ofNat 8 cause ∧
        t.t.htrapaddr = addr ∧ status t.t.hstatus u.t.hstatus u.t.lvl ∧
        sameRegs u t ∧ t.t.trappc = u.t.trappc ∧ t.t.tstatus = u.t.tstatus ∧ ∀ k, viewByte t k = viewByte u k
    toS .ecall 11 (BitVec.ofNat 64 s.t.a.pc) ∧ toS (.trap a) 13 (rd s a) ∧ toS .brk 9 (BitVec.ofNat 64 s.t.a.pc) ∧
    toH .hcall 12 (BitVec.ofNat 64 s.t.a.pc) ∧
    (u.t.lvl = .h → toH .ecall 11 (BitVec.ofNat 64 s.t.a.pc) ∧ toH (.trap a) 13 (rd s a) ∧ toH .brk 9 (BitVec.ofNat 64 s.t.a.pc))

/-- R397: IRET at S goes to TRAPPC at the level that TSTATUS saved, with IE as it was saved and the handler left; at H the same of H's
registers, and DBL is cleared. At U it is illegal. -/
def Obligations.ReturnsFromTraps : Prop :=
  ∀ (s : State), let u := commitOpen s
    let after (t old : BitVec 8) : Prop := t.toNat % 4 = old.toNat % 4 ∧ t.getLsbD 5 = old.getLsbD 6 ∧ t.getLsbD 6 = old.getLsbD 6 ∧
      t.getLsbD 7 = false ∧ t.getLsbD 4 = false
    (s.t.lvl = .u → exec .iret s = .next (illegal s (encode .iret))) ∧
    (s.t.lvl ≠ .u → u.t.lvl = .s → Answers .iret s fun t =>
      t.t.a.pc = u.t.trappc.toNat ∧ t.t.lvl = levelOf (u.t.tstatus.toNat % 4) ∧ after t.t.tstatus u.t.tstatus ∧
      t.t.hstatus = u.t.hstatus ∧ sameRegs u t ∧ ∀ k, viewByte t k = viewByte u k) ∧
    (s.t.lvl ≠ .u → u.t.lvl = .h → Answers .iret s fun t =>
      t.t.a.pc = u.t.htrappc.toNat ∧ t.t.lvl = levelOf (u.t.hstatus.toNat % 4) ∧ after t.t.hstatus u.t.hstatus ∧
      t.t.tstatus = u.t.tstatus ∧ sameRegs u t ∧ ∀ k, viewByte t k = viewByte u k)

/-- R50, R357, R395: IRET, CTXSAVE, CTXLOAD and TLBINV are illegal at U, FRAMEGIVE and KEYLOAD below H; the trap holds the word. -/
def Obligations.PrivilegeIsChecked : Prop :=
  ∀ (s : State) (d a b : Reg),
    let refuses (i : Instr) : Prop :=
      exec i s = .next (takeTrap s (plainTrap 1 (BitVec.ofNat 64 (encode i))) s.t.a.pc false false false)
    (s.t.lvl = .u → refuses .iret ∧ refuses .ctxsave ∧ refuses (.ctxload a) ∧ refuses (.tlbinv a b)) ∧
    (s.t.lvl ≠ .h → refuses (.framegive d a b) ∧ refuses (.keyload d a b)) ∧
    ∀ c : BitVec 12, c.toNat / 256 > s.t.lvl.code → refuses (.csrrd d c) ∧ refuses (.csrwr d a c) ∧ refuses (.csrset d a c) ∧
      refuses (.csrclr d a c)

/-- R394, R398, R399: CTXSAVE writes the image and clears the dirty bit of every vector and mask register, in one step (the model's choice, log
entry 81). CTXLOAD of a loadable image clears them too and takes from it the pc and the level to return to: at S in TRAPPC and TSTATUS, at H in
HTRAPPC and HSTATUS; CTXBASE is the image's address, or at H what an S block holds. Of any other image it is illegal. Where a write of a device
register is uncommitted both commit it first and run again (R378). -/
def Obligations.ContextsMove : Prop :=
  ∀ (s : State) (a : Reg),
    let clean (t : State) : Prop := (∀ r : Reg, (t.t.a.v[r.toNat]'(r.isLt)).dirty = false) ∧
      ∀ k : BitVec 3, (t.t.a.m[k.toNat]'(k.isLt)).dirty = false
    (s.t.lvl ≠ .u → ¬noDevWrites s → exec .ctxsave s = .next (commitOpen s) ∧ exec (.ctxload a) s = .next (commitOpen s)) ∧
    (noDevWrites s → canSave s = true → Answers .ctxsave s fun t => ∃ x, x = commitOpen (complete (saveImage s).1) ∧ clean t ∧
      (∀ r : Reg, vreg t.t.a r = vreg x.t.a r) ∧ sameRegs x t ∧ t.t.a.pc = x.t.a.pc ∧ Keeps [.vec, .ckpt] x t) ∧
    (noDevWrites s → canLoad s (rd s a) = true → Answers (.ctxload a) s fun t => ∃ img, imageAt s (rd s a) = some img ∧ clean t ∧
      let u := loadState s (rd s a)
      let ppl := dfld img.head 8 1 % 4
      (u.t.lvl ≠ .h → t.t.ctxbase = rd s a ∧ t.t.trappc = pcBits (dfld img.head 0 8) ∧ t.t.tstatus.toNat % 4 = ppl) ∧
      (u.t.lvl = .h → t.t.htrappc = pcBits (dfld img.head 0 8) ∧ t.t.hstatus.toNat / 4 = u.t.hstatus.toNat / 4 ∧
        t.t.hstatus.toNat % 4 = (if ppl = 3 then u.t.hstatus.toNat % 4 else ppl) ∧
        t.t.ctxbase = (if bitAt (dfld img.head 0xB 1) 2 then bitsOf52 12 (hdw img.head 0x520) else rd s a))) ∧
    ∀ img, noDevWrites s → s.t.lvl ≠ .u → (rd s a).toNat % 4096 = 0 → imageAt s (rd s a) = some img → loadable (loadState s (rd s a)) img = false →
      exec (.ctxload a) s = .next (illegal (loadState s (rd s a)) (encode (.ctxload a)))

/-- R348, R360, R400, R415, R418: HALT leaves the thread HALTED, out of every group and with no grant, after a dump where it gives a
reason; TLBINV drops the translations that it names and no other, where no chunk in flight rests on them, goes to H where a guest has
shadow tables, and is illegal where the reserved bits of its operand are not 0; HALT, after the writes of device registers before it (R378); TMARK, after the writes of device registers before it (R409),
leaves its two words in the trace ring, except at H, and changes no register. -/
def Obligations.HaltsAndMarks : Prop :=
  ∀ (s : State) (a b : Reg), let u := commitOpen s
    (¬noDevWrites s → exec (.halt a) s = .next (commitOpen s)) ∧
    (noDevWrites s → Answers (.halt a) s fun t => t.t.run = .halted ∧ t.t.groups = [] ∧ t.t.grants = [] ∧ t.t.pass = none ∧
      t.t.a.nodes = [] ∧ t.t.a.leaves = [] ∧ t.t.preS = false ∧ t.t.preH = false) ∧
    (noDevWrites s → let z := settleSealed u
      exec (.halt a) s = .next (rebase (haltThread
        (if rd z a = 0 then z else writeDump z (plainTrap 0 0) z.t.a.pc false (rd z a))))) ∧
    (s.t.lvl = .s → fld s.t.hptbase 63 1 = 1 →
      exec (.tlbinv a b) s = .next (trapHere s 12 (BitVec.ofNat 64 (encode (.tlbinv a b))))) ∧
    (s.t.lvl ≠ .u → (s.t.lvl = .s → fld s.t.hptbase 63 1 = 0) →
      (fld (rd s b) 16 47 ≠ 0 → exec (.tlbinv a b) s = .next (illegal s (encode (.tlbinv a b)))) ∧
      (fld (rd s b) 16 47 = 0 → let named := tlbNamed u.t.vfid (rd u a) (rd u b)
        let hit := usesNamed u.t.vfid (rd u a) (rd u b)
        (∀ i ∈ liveTids u, let v := switchTo u i
          ownHits v.t hit = false ∧ agentsHit v hit = false) → Answers (.tlbinv a b) s fun t =>
            (∀ e, e ∈ t.tlb ↔ e ∈ u.tlb ∧ named e = false) ∧ sameRegs u t ∧ sameCsrs u t ∧ follows u t ∧ t.mem = u.mem ∧
            ∀ i, i ≠ u.cur → threadAt t i = threadAt u i)) ∧
    (¬noDevWrites s → exec (.tmark a b) s = .next (commitOpen s)) ∧
    (noDevWrites s → Answers (.tmark a b) s fun t => ∃ x, t = rebase (commitOpen x) ∧ sameRegs u x ∧ follows u x ∧
      Keeps [.pc, .count, .ckpt, .trace] u x ∧ (u.t.lvl = .h → x.c.ring = u.c.ring) ∧
      (u.t.lvl ≠ .h → ∃ r : TraceRec, x.c.ring = spPut u.c.ring u.c.ringNext r ∧ r.d0.toNat / 2 ^ 58 = 7 ∧ r.d1 = u.c.cyc ∧
        r.d2 = rd u a ∧ r.d3 = rd u b))

/-- R358, R359: FRAMEGIVE acts in two steps (log entry 71), and KEYLOAD reads its record before it judges the slot (log entry 116): both are the
model's choices. FRAMEGIVE's status 1 for a frame or an entry that cannot be and 2 for a frame in transit. Any other it takes, its TRANSIT
set, and stalls; then it gives the frame: X[D] is 0, every byte of the frame reads zero, and what follows it runs. KEYLOAD's status for a
slot that does not exist, and the key that it loads. -/
def Obligations.FramesAndKeys : Prop :=
  ∀ (s : State) (d a b : Reg), let u := commitOpen s
    let i := (rd s a).toNat
    let e := rd s b
    let bad := 56624448 ≤ i ∨ fld e 31 33 ≠ 0 ∨ fld e 23 7 ≠ 0 ∨ fld e 13 3 ≠ 0
    let fot (v : State) : Nat := fld v.t.fotbase 16 34 * 65536
    let transit := bitAt (fotEntry u (fot u) i) 31
    s.t.lvl = .h →
    (bad → Answers (.framegive d a b) s fun t => puts u t d 1 ∧ follows u t ∧ Keeps [.x, .pc, .count, .ckpt] u t) ∧
    (¬bad → transit = true → Answers (.framegive d a b) s fun t => puts u t d 2 ∧ follows u t ∧ Keeps [.x, .pc, .count, .ckpt] u t) ∧
    (¬bad → transit = false → Answers (.framegive d a b) s fun t =>
      t = modT (takeFrame u i) (fun x => { x with stall := .frame i e d }) ∧ goesOn t = .next (endFrame t) ∧
      let g := giveFrame (modT t fun x => { x with stall := .none }) i e
      puts g (endFrame t) d 0 ∧ follows g (endFrame t) ∧ Keeps [.x, .pc, .count, .ckpt] g (endFrame t) ∧
      ∀ p, (framePlace i).1 ≤ p → p < (framePlace i).1 + (framePlace i).2 →
        (p < fot t ∨ fot t + 8 * 56624448 ≤ p) → rawByte g p = 0) ∧
    (¬noDevWrites s → exec (.keyload d a b) s = .next (commitOpen s)) ∧
    ∀ (v : Nat) (u1 : State), noDevWrites s → (rd s b).toNat % 64 = 0 → loadNat u (rd u b) 64 = (u1, .ok v) →
      Answers (.keyload d a b) s fun t => ∃ x, t = rebase (commitOpen x) ∧ follows u1 x ∧
        (8192 ≤ (rd u1 a).toNat → puts u1 x d 1 ∧ Keeps [.x, .pc, .count] u1 x) ∧
        ((rd u1 a).toNat < 8192 → puts u1 x d 0 ∧ spGet [] x.keys (rd u1 a).toNat = leBytes 64 v)

/-- R426 to R428: module reset leaves steward 0 as the thread that moves, RUNNING at H with every other thread HALTED, MEAS at the hash of the boot
image, the image in steward 0's memory, other main memory as it was, and local windows zero; where the signature fails every core is held in
reset, with MEAS extended all the same and a failure code of 1 in the boot status. An extension of MEAS hashes the stage's hash into it until
the chain is closed. Where the image lies and what reset keeps are the model's choices (log entries 12 and 20). -/
def Obligations.ModuleComesUp : Prop :=
  ∀ (s : State) (image : List Byte),
    (quiet s → s.canonical → ringSize (devGet s 0x40000A00010) = 0 →
      let old (k : Nat) : Byte := if k < 2 ^ 52 then rawByte s k else 0
      Answers .moduleReset s fun t =>
      t.cur = 320 ∧ t.t = Thread.reset 320 ∧ t.threads = [] ∧ t.jmode = 0 ∧ t.stopped = false ∧ t.agenda = [] ∧ t.meas = bootMeas ∧
      t.chainClosed = false ∧
      (Config.signatureOk s.free = true → t.holdReset = false ∧ fld (devGet t 0x40000000000) 0 32 = 0 ∧
        (∀ i < Config.stage1Image.length, rawByte t (Config.stage1Base + i) = Config.stage1Image.getD i 0) ∧
        ∀ k, (k < Config.stage1Base ∨ Config.stage1Base + Config.stage1Image.length ≤ k) → rawByte t k = old k) ∧
      (Config.signatureOk s.free = false → t.holdReset = true ∧ fld (devGet t 0x40000000000) 0 32 = 1 ∧ ∀ k, rawByte t k = old k)) ∧
    (s.chainClosed = true → Answers (.measExtend image) s fun t => t = s) ∧
    (s.chainClosed = false → Answers (.measExtend image) s fun t =>
      t.meas = Config.sha384 (leBytes 48 s.meas.toNat ++ leBytes 48 (Config.sha384 image).toNat) ∧ { t with meas := s.meas } = s)

/-- R127, R385, R387, R401: a trap of a RUNNING thread whose core is up, at a boundary, comes once the last chunk of a completed pass has
committed, stops a pass in flight and is taken at the state that this leaves. A trap of a thread below H while S is in a handler goes to H with DBL
set; one of cause 15 halts its thread after the dump, and where a write of a device register is uncommitted commits that first and waits (R378); and the
timeout of a RAND that has waited for 1 ms of die time does so too, and not before. -/
def Obligations.TrapsAreEntered : Prop :=
  ∀ (s : State) (tid cause : Nat) (addr : Word), let u := switchTo s tid
    coreUp s (coreOf tid) →
    (u.t.run ≠ .running → ActsAs tid (.trapEntry tid cause addr) s fun u t => t = u) ∧
    (∀ since, u.t.stall = .rand since → noDevWrites u → let late : Prop := since + 1000000 * 2 ^ 32 ≤ dieTime u (dieOf (coreOf u.cur))
      (late → ActsAs tid (.randTimeout tid) s fun u t => t = trapHere u 15 0 ∧ t.t.run = .halted) ∧
      (¬late → ActsAs tid (.randTimeout tid) s fun u t => t = u)) ∧
    (u.t.run = .running → 0 < cause → cause < 16 → let v := settleSealed u
    (ActsAs tid (.trapEntry tid cause addr) s fun u t => let x := stopPass (settleSealed u) none
      t = takeTrap x (plainTrap cause addr) x.t.a.pc false false u.t.pass.isSome) ∧
    (u.t.pass = none → v.t.pass = none → let c := commitOpen (commitSealed v)
      cause ≠ 15 → cause ≠ 12 → c.t.lvl ≠ .h → nested c.t.hstatus = false → ActsAs tid (.trapEntry tid cause addr) s fun _ t =>
        sameRegs c t ∧ t.t.run = .running ∧ t.t.stall = .none ∧
        (nested c.t.tstatus = true → t.t.lvl = .h ∧ t.t.a.pc = c.t.hvec.toNat ∧ t.t.hstatus.getLsbD 4 = true ∧
          t.t.hstatus.getLsbD 7 = true ∧ t.t.htrapcause = BitVec.ofNat 8 cause ∧ t.t.htrapaddr = addr ∧ t.t.tstatus = c.t.tstatus) ∧
        (nested c.t.tstatus = false → t.t.lvl = .s ∧ t.t.a.pc = c.t.tvec.toNat ∧ t.t.tstatus.getLsbD 7 = true ∧
          t.t.tstatus.getLsbD 6 = c.t.tstatus.getLsbD 5 ∧ t.t.tstatus.getLsbD 5 = false ∧ t.t.trapcause = BitVec.ofNat 8 cause ∧
          t.t.trapaddr = addr ∧ t.t.trappc = BitVec.ofNat 64 (v.t.a.pc % 2 ^ 52 / 4 * 4) ∧ t.t.hstatus = c.t.hstatus)) ∧
    let x := stopPass v none
    (noDevWrites x → ActsAs tid (.trapEntry tid 15 addr) s fun _ t => t.t.run = .halted ∧ t.t.groups = [] ∧ t.t.grants = []) ∧
    (¬noDevWrites x → ActsAs tid (.trapEntry tid 15 addr) s fun _ t => t.t.deferred = some (plainTrap 15 addr)))

/-- R93, R97, R267, R389, R390, R402, R403: a user interrupt saves x28 to x31 and the pc, puts the lowest enabled flag that is set and its
status word in x28 and x29, and goes to UIVEC. A pre-emption that S has asked for, with no pass in flight, enters S with cause 14. Either
completes a PARK with 1, and a pre-empted PARK.C keeps what is left of its count with its pc and level (DEDUCED, log entry 80). The last chunk of a
completed pass commits before either. A dump that has nowhere to go sends its
records, which two invalid error queues drop. -/
def Obligations.InterruptsLand : Prop :=
  ∀ (s : State) (tid : Nat), let u := switchTo s tid
    let z := settleSealed u
    quiet s → quiet z →
    (let w := commitOpen z
     let c := if w.t.run = .parked then wr w w.t.parkReg 1 else w
     uiBoundary u = true → w.t.a.done &&& w.t.a.uien ≠ 0 → ActsAs tid (.userInterrupt tid) s fun _ t =>
      (∃ k : Nat, ∃ h : k < 16, (c.t.a.done &&& c.t.a.uien).getLsbD k = true ∧
        (∀ j < k, (c.t.a.done &&& c.t.a.uien).getLsbD j = false) ∧ rd t 28 = BitVec.ofNat 64 k ∧ rd t 29 = c.t.a.evs[k]'h) ∧
      rd t 30 = 0 ∧ rd t 31 = 0 ∧ (∀ r : Reg, r.toNat < 28 → rd t r = rd c r) ∧ t.t.a.uiactive = true ∧
      t.t.a.shadow.toList = [rd c 28, rd c 29, rd c 30, rd c 31] ∧ t.t.a.uipc = BitVec.ofNat 64 (c.t.a.pc % 2 ^ 52 / 4 * 4) ∧
      t.t.a.pc = c.t.a.uivec.toNat ∧ t.t.run = .running ∧ t.t.stall = .none) ∧
    (let v := modT z fun t => { t with preS := false }
     let w := if v.t.run = .parked then wr v v.t.parkReg 1 else modT v keepPark
     let c := commitOpen (commitSealed (modT w fun t => { t with run := .running, stall := .none }))
     preBoundary u = true → z.t.preH = false → z.t.pass = none → c.t.lvl ≠ .h → nested c.t.tstatus = false →
     ActsAs tid (.preEmption tid) s fun _ t =>
      (z.t.run = .timed → (z.t.a.pc, z.t.lvl, z.t.parkLeft.getD 0) ∈ t.t.parkKept) ∧
      t.t.preS = false ∧ t.t.lvl = .s ∧ t.t.a.pc = c.t.tvec.toNat ∧ t.t.trapcause = 14 ∧ t.t.trapaddr = 0 ∧
      t.t.trappc = BitVec.ofNat 64 (z.t.a.pc % 2 ^ 52 / 4 * 4) ∧ t.t.run = .running ∧ sameRegs c t) ∧
    (ActsAs tid (.dump tid) s fun u t => t = writeDump u (plainTrap 0 0) u.t.a.pc false 1) ∧
    (u.t.dumpbase.toNat / 2 ^ 23 % 2 ^ 29 = 0 → fld (devGet u (paVf u.t.vfid 0x28)) 63 1 = 0 →
      fld (devGet u 0x40000000030) 63 1 = 0 → Sorted u → ActsAs tid (.dump tid) s fun u t =>
        devGet t 0x40000000010 = devGet u 0x40000000010 + 2 ∧ { t with dev := u.dev } = u)

/-- R94, R97 to R99, R127, R135, R306, R321, R328, R337, R338: how a wait ends while the core's clock runs. A wake ends the power gating of
its core and reaches a running, parked or napping thread; during a relock it is kept. On a core that is up a PARK.C and a YIELD go on once their
count is 0, and not before, as do a WAITV and a STRIP once what they wait for has come; a BARW completes once its release has reached its die, and not
before, and traps where its record is poisoned (R342); an arrival that the barrier unit held is accepted once its phase is open; a PANGET takes a grant of
another die's panel once its 1,024 cycles are over, and before that waits where its own die has no panel ready; and a recovered entropy source serves a
stalled RAND that is within its 1 ms. -/
def Obligations.WaitsEnd : Prop :=
  ∀ (s : State) (tid : Nat), let u := switchTo s tid
    quiet s →
    ((coreAt s (coreOf tid)).relock ≠ none → ∀ src, (coreAt s (coreOf tid)).gated = false → (coreAt s (coreOf tid)).waits = false →
      (s.wakes.find? (isWake src tid)).isSome = true →
      Answers (.wakeDelivery src tid) s fun t => t = putCore s (coreOf tid)
        { coreAt s (coreOf tid) with inbound := (coreAt s (coreOf tid)).inbound ++ [.wakeDelivery src tid] }) ∧
    (clockRuns s tid →
    (∀ (src : Nat) (image : Word) (lvl : Level), let w := { s with wakes := s.wakes.erase (.wake src tid image lvl u.t.vfid) }
      let arrives (P : State → State → Prop) : Prop :=
        ∃ t, exec (.wakeDelivery src tid) s = .next (switchTo t s.cur) ∧ P (switchTo w tid) t
      s.wakes.find? (isWake src tid) = some (.wake src tid image lvl (threadAt s tid).vfid) →
      ((coreAt s (coreOf tid)).gated = true → exec (.wakeDelivery src tid) s = exec (.wakeDelivery src tid) (ungate s (coreOf tid)) ∧
        (coreAt (ungate s (coreOf tid)) (coreOf tid)).gated = false) ∧
      ((coreAt s (coreOf tid)).gated = false → image = 0 → (threadAt s tid).vfid = u.t.vfid →
        ((threadAt s tid).run = .running → arrives fun v t => t.t.a.token = true ∧ Keeps [.token] v t) ∧
        ((threadAt s tid).run = .napping → arrives fun v t => t.t.run = .running ∧ Keeps [.run] v t) ∧
        ((threadAt s tid).run = .parked → arrives fun v t => t.t.run = .running ∧ puts v t v.t.parkReg 0 ∧
          Keeps [.x, .run, .ckpt] v t)))) ∧
    (coreUp s (coreOf tid) →
    (u.t.run = .timed → u.t.parkLeft = some 0 → ActsAs tid (.parkCExpiry tid) s fun u t =>
      t.t.run = .running ∧ t.t.parkLeft = none ∧ follows u t ∧ sameRegs u t ∧ Keeps [.run, .pc, .count] u t) ∧
    (u.t.parkLeft ≠ some 0 → ActsAs tid (.parkCExpiry tid) s fun u t => t = u) ∧
    (u.t.stall = .yield 0 → stallEnds (.yieldExpiry tid) tid s) ∧
    (∀ n, u.t.stall = .yield (n + 1) → ActsAs tid (.yieldExpiry tid) s fun u t => t = u) ∧
    (∀ l, (u.t.stall = .waitv l true → stallEnds (.waitvWake tid) tid s) ∧
      (u.t.stall = .waitv l false → ActsAs tid (.waitvWake tid) s fun u t => t = u)) ∧
    (∀ g k d, u.t.stall = .barw g k d → ∀ r, groupAt u g = some r →
      (r.poison = false → allArrived r k = true → releaseWait u g k = 0 → ActsAs tid (.barwRelease tid) s fun u t => t.t.stall = .none ∧ follows u t ∧
        puts u t d (if isMember u g u.cur then 0 else 2) ∧ Keeps [.x, .pc, .stall, .ckpt] u t) ∧
      (r.poison = false → allArrived r k = true → releaseWait u g k ≠ 0 → ActsAs tid (.barwRelease tid) s fun u t => t = u) ∧
      (r.poison = false → allArrived r k = false → isMember u g u.cur = true → ActsAs tid (.barwRelease tid) s fun u t => t = u) ∧
      (r.poison = true → ActsAs tid (.barwRelease tid) s fun u t => t = trapHere u 8 (BitVec.ofNat 64 g))) ∧
    (∀ i b, u.t.stall = .strip i b →
      ((slotAt u i).poison = true ∨ b ≤ (slotAt u i).val.toNat → stallEnds (.watermarkWaitEnd tid) tid s) ∧
      ((slotAt u i).poison = false → (slotAt u i).val.toNat < b → ActsAs tid (.watermarkWaitEnd tid) s fun u t => t = u)) ∧
    (Sorted s → ∀ g p f d r, u.t.stall = .bara g p f d → groupAt u g = some r → r.poison = false →
      (p ≤ r.cp + 64 → ActsAs tid (.barrierArrival tid) s fun u t => t.t.stall = .none ∧ puts u t d 0 ∧ follows u t ∧
        t.groups = (acceptArrival u g u.cur f p).groups ∧
        Keeps [.x, .pc, .stall, .ckpt, .groups] (acceptArrival u g u.cur f p) t) ∧
      (r.cp + 64 < p → ActsAs tid (.barrierArrival tid) s fun u t => t = u)) ∧
    (∀ n, u.t.stall = .panget (n + 1) → ownPanel u = false → ActsAs tid (.pangetRemoteWait tid) s fun u t => t = u) ∧
    (∀ (n : Nat) (s1 : State) (w : Nat) (d a b : Reg), u.t.stall = .panget n → (n = 0 ∨ ownPanel u = true) → fetchControl u = (s1, .ok w) →
      decode w = .ok (.panget d a b) → (ActsAs tid (.pangetRemoteWait tid) s fun _ t => t = pangetOp true d a b s1) ∧
      let v := modT (commitOpen s1) fun t => { t with stall := .none }
      let x := renegotiateNow v
      ∀ q p, n = 0 → noDevWrites s1 → localQueue (rd v a) = some q → qOwner v q = v.t.vfid → qKind v q ≠ 1 → v.t.grants.length < 4 → b = 0 → 0 < d.toNat →
        d.toNat ≤ 28 → pickPanel x q x.cur (ownDie x q) = some (p, false) → grantRows p x.c.fcur (rowsHeld x) ≠ 0 → quiet v →
        ActsAs tid (.pangetRemoteWait tid) s fun _ t => ∃ y, t = rebase (commitOpen y) ∧
          rd y d = BitVec.ofNat 64 (takeGrant x p (grantRows p x.c.fcur (rowsHeld x))).2.row0 ∧
          y.t.grants.length = x.t.grants.length + 1 ∧ follows x y) ∧
    (Answers (.entropyHealthChange false 0) s fun t => t = { s with healthy := false }) ∧
    (∀ v : Word, (∀ i ∈ liveTids s, waitsForDraw (threadAt s i) = false) →
      Answers (.entropyHealthChange true v) s fun t => t = { s with healthy := true }) ∧
    ∀ v : Word, (liveTids s).find? (fun i => waitsForDraw (threadAt s i) && !randLate (switchTo s i) &&
        (coreAt s (coreOf i)).relock.isNone && !(coreAt s (coreOf i)).off) = some tid →
      ActsAs tid (.entropyHealthChange true v) s fun _ t => t.t.stall = .none ∧ t.t.draw = some v ∧ t.healthy = true ∧ sameRegs u t)

/-- R99, R129, R130, R134 to R136, R405, R406, R429, R430, R432: power gating, frequency steps and the governor. A core whose threads rest gates
when they have rested for 4,096 cycles, and no other. A step to a frequency within CAP and FLIM, a multiple of 25 MHz from 1,000 up, stops the
core's clock, where neither gating nor a relock nor a grant of slices is in its way, and else waits. A relock ends 200 ticks after it began, with
the new frequency and NOM 2,000 higher. A core above TCRIT steps to 1,000 MHz, and a steward's clock stops; above PLIM the fastest core steps
down; one that TWARN has slowed is not raised within 5 degrees of it; DEGR never falls; and a module fault is reported, with class 8 and instance 0 where
a temperature or a rail has been out of its limit for too long (the model's choice, log entry 74), and stops the slices. -/
def Obligations.CoresChangeSpeed : Prop :=
  ∀ (s : State) (core mhz degC : Nat), let c := coreAt s core
    let stops (i : Instr) (b f : Nat) (P : Core → Prop) : Prop := Answers i s fun t =>
      ∃ t0, (coreAt t b).relock = some (f, t0) ∧ (coreAt t b).fcur = (coreAt s b).fcur ∧ P (coreAt t b)
    quiet s → Sorted s → core < 160 → c.waits = false →
    (ActsAs (2 * core) (.powerGating core) s fun u t =>
      ((u.c.gated = true ∨ u.c.off = true ∨ restful u = false) → t = u) ∧
      (u.c.gated = false → u.c.off = false → restful u = true → t = cyclesPass u (4096 - u.c.idleFor) ∧ t.c.gated = true ∧
        t.c.cyc = u.c.cyc + BitVec.ofNat 64 (4096 - u.c.idleFor))) ∧
    (c.gated = true → Answers (.gatingExit core) s fun t => (coreAt t core).gated = false ∧ (coreAt t core).stepHeld = none ∧
      (coreAt t core).idleFor = 0 ∧ (c.stepHeld = none → (coreAt t core).relock = c.relock) ∧
      ∀ f, c.stepHeld = some f → let n := min f.1 (ceilingOf s core)
        ((n = c.fcur ∨ (c.fcur < n ∧ mayRaise s core = false)) → (coreAt t core).relock = c.relock) ∧
        (n ≠ c.fcur → (c.fcur < n → mayRaise s core = true) → (coreAt t core).relock = some (n, firstTick (max c.clock (dieTime s (dieOf core)))))) ∧
    (c.gated = false → Answers (.gatingExit core) s fun t => t = s) ∧
    ((ceilingOf s core < mhz ∨ (targetOf s core < mhz ∧ mayRaise s core = false) ∨ (mhz = targetOf s core ∧ c.stepHeld = none) ∨ mhz < 1000 ∨
        mhz % 25 ≠ 0) → Answers (.frequencyStep core mhz) s fun t => t = s) ∧
    (mhz = targetOf s core → mhz ≤ ceilingOf s core → 1000 ≤ mhz → mhz % 25 = 0 → c.stepHeld ≠ none → stepWaits s core = false → mhz ≠ c.fcur →
      (c.fcur < mhz → mayRaise s core = true) → stops (.frequencyStep core mhz) core mhz fun c => c.stepHeld = none) ∧
    (mhz ≤ ceilingOf s core → (mhz ≤ targetOf s core ∨ mayRaise s core = true) → mhz ≠ targetOf s core → 1000 ≤ mhz → mhz % 25 = 0 →
      (stepWaits s core = false → mhz ≠ c.fcur → (c.fcur < mhz → mayRaise s core = true) → stops (.frequencyStep core mhz) core mhz fun _ => True) ∧
      (stepWaits s core = true → Answers (.frequencyStep core mhz) s fun t =>
        (coreAt t core).stepHeld.map Prod.fst = some (min mhz ((c.stepHeld.map Prod.fst).getD mhz)) ∧
        (coreAt t core).relock = c.relock ∧ (coreAt t core).fcur = c.fcur)) ∧
    (∀ f t0, c.relock = some (f, t0) → c.inbound = [] → c.sigL = [] → c.sigG = [] → c.stepHeld = none →
      Answers (.relockEnd core) s fun t => (coreAt t core).fcur = f ∧ (coreAt t core).relock = none ∧
        (coreAt t core).nom = c.nom + 2000 ∧ (coreAt t core).cyc = c.cyc ∧
        ticksOf (coreAt t core).clock = BitVec.ofNat 64 (t0.toNat + 200) ∧
        (f ≤ ceilingOf s core → (coreAt t core).stepHeld = none) ∧
        (ceilingOf s core < f → (coreAt t core).stepHeld = some (ceilingOf s core, ceilingLimit s core))) ∧
    (tcritOf s < degC → targetOf s core ≠ 1000 → 1000 < c.fcur → stepWaits s core = false →
      stops (.temperatureReading core degC) core 1000 fun c => c.temp = degC % 256 ∧ c.limit = 2) ∧
    (degC ≤ twarnOf s → twarnOf s < degC + 5 → degC < 256 → c.warm = true → degC ≤ tcritOf s →
      Answers (.temperatureReading core degC) s fun t => coreAt t core = { c with temp := degC % 256 }) ∧
    (∀ k, 160 ≤ k → tcritOf s < degC → degC < 256 → Answers (.temperatureReading k degC) s fun t => (coreAt t k).off = true) ∧
    (∀ watts, let b := fastest s
      (watts ≤ plimOf s → Answers (.powerMeasurement watts) s fun t => t = { s with power := watts }) ∧
      (plimOf s < watts → stepWaits s b = false → (coreAt s b).waits = false → (coreAt s b).stepHeld = none →
        1025 ≤ (coreAt s b).fcur → (coreAt s b).fcur % 25 = 0 → (coreAt s b).fcur - 25 ≤ ceilingOf s b →
        stops (.powerMeasurement watts) b ((coreAt s b).fcur - 25) fun c => c.limit = 4)) ∧
    (∀ d, let e := min 255 (max c.degr d)
      Answers (.processMonitor core d) s fun t => (coreAt t core).degr = e ∧
        (coreAt t core).cap = max 1200 (c.tmax - 25 * (e / 16)) ∧ (coreAt t core).fcur = c.fcur) ∧
    (∀ cls inst rail,
      let faults (i : Instr) (a b : Nat) : Prop := Answers i s fun t =>
        t.stopped = true ∧ fld (devGet t 0x40000000018) 63 1 = 1 ∧ fld (devGet t 0x40000000018) 8 8 = a % 256 ∧
          fld (devGet t 0x40000000018) 0 8 = b % 256
      faults (.watchdogExpiry cls inst) cls inst ∧ (railCritical s rail = true → faults (.vminTimeout rail) 8 0) ∧
      (railCritical s rail = false → Answers (.vminTimeout rail) s fun t => t = s) ∧
      (tcritOf s + 5 < c.temp → faults (.tcritTimeout core) 8 0) ∧
      (c.temp ≤ tcritOf s + 5 → Answers (.tcritTimeout core) s fun t => t = s))

/-- R226, R231, R242, R253, R254, R259, R281, R287: what completes by itself. A closed chunk commits where slices grant, its core's clock runs
and no reservation is in the way (a move that would commit it against one is marked and does not take place: the model's choice, log entry 46), and
else waits; an agent that wants slices reserves them where they are free; an engine operation runs chunk
by chunk, ends with status 0, and is completed in its flag, in the state and in its checkpoints; a tile's body is loaded; the oldest matrix
step finishes where its check holds, or is discarded on a mismatch. -/
def Obligations.UnitsComplete : Prop :=
  ∀ (s : State) (tid k core slot : Nat), let u := switchTo s tid
    (s.stopped = true → Answers (.chunkCommit tid) s fun t => t = s) ∧
    (tid < 336 → s.stopped = false → (coreAt s (coreOf tid)).relock ≠ none → (coreAt s (coreOf tid)).gated = false →
      (coreAt s (coreOf tid)).waits = false → Answers (.chunkCommit tid) s fun t => t = putCore s (coreOf tid)
        { coreAt s (coreOf tid) with inbound := (coreAt s (coreOf tid)).inbound ++ [.chunkCommit tid] }) ∧
    (tid < 336 → s.stopped = false → coreUp s (coreOf tid) →
      (u.t.closed = none → ActsAs tid (.chunkCommit tid) s fun u t => t = u) ∧
      ∀ c, u.t.closed = some c →
        ((∃ h ∈ u.held, h.2 ≠ u.cur ∧ h.1 ∈ footprint c) → ActsAs tid (.chunkCommit tid) s fun _ t => t.outOfTurn = true) ∧
        (c.writeL = [] → c.writeG = [] → c.writes = [] → c.dev = [] → c.out = [] → u.t.redo = none → quiet s → u.t.lvl = .h → u.outOfTurn = false →
          (∀ h ∈ u.held, h.2 ≠ u.cur → h.1 ∉ footprint c) → u.t.streak < 63 → ActsAs tid (.chunkCommit tid) s fun u t =>
            t.t.closed = none ∧ t.t.ckpt = u.t.ckptOpen ∧ t.t.squashes = 0 ∧ t.outOfTurn = false ∧
            t.t.reserving = false ∧ t.t.streak = u.t.streak + 1 ∧ (∀ e ∈ t.held, e.2 ≠ u.cur) ∧ t.t.chunk = u.t.chunk ∧ t.mem = u.mem)) ∧
    (336 ≤ tid → tid < 1048576 → Answers (.chunkReservation tid) s fun t => t = s) ∧
    (tid < 336 → coreUp s (coreOf tid) →
      ((u.t.wanted = [] ∨ u.t.reserving = true ∨ slicesFree u u.t.wanted = false) →
        ActsAs tid (.chunkReservation tid) s fun u t => t = u) ∧
      (u.t.wanted ≠ [] → u.t.reserving = false → slicesFree u u.t.wanted = true → ActsAs tid (.chunkReservation tid) s fun u t =>
        t.t.reserving = true ∧ t.held = u.t.wanted.map (fun sl => (sl, u.cur)) ++ u.held)) ∧
    (s.stopped = true → Answers (.engineOperation tid k) s fun t => t = s) ∧
    (s.stopped = false → coreUp s (coreOf tid) → ∀ o, u.engines.find? (fun e => e.tid == u.cur && e.k == k && e.go && e.result.isNone) = some o →
      (o.chunk = none → o.size ≤ o.pos → ActsAs tid (.engineOperation tid k) s fun u t =>
        t.engines = (u.engines.map fun e => if e.tid = u.cur ∧ e.k = k then { e with result := some 0 } else e) ∧
        t.agenda = u.agenda ++ [.event (.engineCompletion u.cur k)] ∧ t.mem = u.mem ∧ sameRegs u t) ∧
      (o.chunk = none → o.pos < o.size → ActsAs tid (.engineOperation tid k) s fun u t => t = followEngine (executeEngine u o) k) ∧
      ∀ c, o.chunk = some c → ActsAs tid (.engineOperation tid k) s fun u t => t = followEngine (commitEngine u o c) k) ∧
    (∀ o st, u.engines.find? (fun e => e.tid == u.cur && e.k == k && e.result.isSome) = some o → o.result = some st → (h : k < 16) →
      coreUp s (coreOf tid) →
      ActsAs tid (.engineCompletion tid k) s fun u t =>
        (∀ a ∈ [t.t.a, t.t.ckpt, t.t.ckptOpen], a.done.getLsbD k = true ∧ a.evs[k]'h = st ∧
          (st.toNat / 2 ^ 60 ≠ 0 → a.efault.getLsbD k = true)) ∧
        (∀ e ∈ t.engines, ¬(e.tid = u.cur ∧ e.k = k)) ∧ sameRegs u t ∧ t.t.a.pc = u.t.a.pc ∧ t.mem = u.mem) ∧
    (160 ≤ core → Answers (.tileLoadCompletion core slot) s fun t => t = s) ∧
    (core < 160 → coreUp s core → Answers (.tileLoadCompletion core slot) s fun t =>
      slotOf (coreAt t core) slot = finishLoad (slotOf (coreAt s core) slot) ∧
      slotOf (coreAt t core) (if slot = 0 then 1 else 0) = slotOf (coreAt s core) (if slot = 0 then 1 else 0) ∧
      (coreAt t core).tiles = (coreAt s core).tiles) ∧
    (coreUp s core → (coreAt s core).mat = [] → Answers (.matrixStepCompletion core false) s fun t => t = s) ∧
    ∀ m l, quiet s → coreUp s core → (coreAt s core).mat = m :: l → m.tid = tid → coreOf tid = core → Sorted u →
      (stepChecks m (finishLoad (slotOf u.c m.slot)) = true → ActsAs tid (.matrixStepCompletion core false) s fun u t =>
        tileRow t.c m.row = (rowStep (tileRow u.c m.row) m (finishLoad (slotOf u.c m.slot))).1 ∧
        (∀ r, r ≠ m.row → tileRow t.c r = tileRow u.c r) ∧ t.c.mat = u.c.mat.erase m ∧ sameRegs u t ∧ t.mem = u.mem) ∧
      ∀ b : Bool, (b = true ∨ stepChecks m (finishLoad (slotOf u.c m.slot)) = false) → ActsAs tid (.matrixStepCompletion core b) s fun u t =>
        t.t.deferred = some (plainTrap 15 (BitVec.ofNat 64 m.pc)) ∧ t.c.tiles = u.c.tiles ∧ (∀ x ∈ t.c.mat, x.tid ≠ tid) ∧ sameRegs u t

/-- R367, R369 to R371, R377, R406: packets of other modules and accesses of the host that are translated and permitted are performed as
one chunk and answered: a load with the value, a store and a reduction with an acknowledgement, an atomic with the old value; a rejection
carries its cause, and writes nothing. After a module fault none is performed. The causes of an answer are the model's choice (log entry 62), and
so is that CXL.mem reaches every frame of the hypervisor's, exposed or not (log entry 70). -/
def Obligations.RequestsArePerformed : Prop :=
  ∀ (s s1 : State) (smod svf n k vf pa : Nat) (off data x : Word) (bytes : List Byte),
    let rld : Instr := .rldRequest smod svf off n
    let rst : Instr := .rstPacket smod svf off n data
    let ramo (op : Nat) : Instr := .ramoRequest smod svf off op data x
    let performs (i : Instr) (w v : Nat) (m : Msg) : Prop := Answers i s fun t => PortWrote s1 t k w v ∧ t.outbound = s1.outbound ++ [m]
    let answers (i : Instr) (m : Msg) : Prop := Answers i s fun t => t.mem = s1.mem ∧ t.outbound = s1.outbound ++ [m]
    (s.stopped = true → ∀ i ∈ [rld, rst, ramo 0, .rredPacket smod svf off 2 0 0 [], .hostWrite vf pa bytes, .cxlMemAccess true pa bytes],
      Answers i s fun t => t = s) ∧
    (portsOpen s → smod ≠ 0 →
      (∀ c, portPlace s smod svf .read off = (s1, .error c) → answers rld (.response smod svf c 0)) ∧
      (∀ c, portPlace s smod svf .write off = (s1, .error c) → answers rst (.ack smod svf c off)) ∧
      (∀ c op, portPlace s smod svf .amo off = (s1, .error c) → answers (ramo op) (.response smod svf c 0)) ∧
      (portsOpen s1 → portPlace s smod svf .read off = (s1, .ok k) →
        answers rld (.response smod svf 0 (BitVec.ofNat 64 (leNat (rawByte s1) k n)))) ∧
      (portsOpen s1 → portPlace s smod svf .write off = (s1, .ok k) → performs rst n data.toNat (.ack smod svf 0 off)) ∧
      (portsOpen s1 → portPlace s smod svf .amo off = (s1, .ok k) →
        let old : Word := BitVec.ofNat 64 (leNat (rawByte s1) k 8)
        let does (op : Nat) (v : Word) : Prop := performs (ramo op) 8 v.toNat (.response smod svf 0 old)
        does 0 (old + data) ∧ does 1 (old &&& data) ∧ does 2 (old ||| data) ∧ does 3 (old ^^^ data) ∧
        does 4 (if data.toInt < old.toInt then data else old) ∧ does 5 (if old.toInt < data.toInt then data else old) ∧
        does 6 data ∧ (old = x → does 7 data) ∧ (old ≠ x → answers (ramo 7) (.response smod svf 0 old))) ∧
      (∀ c l, (rredReach s smod svf off 2 1 l).2 = .error c → Answers (.rredPacket smod svf off 2 0 1 l) s fun t =>
        t.mem = s.mem ∧ t.outbound = s.outbound ++ [.ack smod svf c off]) ∧
      (admission s smod svf = none → (rredReach s smod svf off 2 1 []).2 = .error 4) ∧
      (∀ v, rredReach s smod svf off 2 1 [v] = (s1, .ok [(k, v)]) → portsOpen s1 →
        performs (.rredPacket smod svf off 2 0 1 [v]) 4 ((leNat (rawByte s1) k 4 + v.toNat) % 2 ^ 32) (.ack smod svf 0 off)) ∧
      (isHostMem pa = true → bytes ≠ [] → Answers (.hostWrite vf pa bytes) s fun t =>
        PortWrote s t pa (bytes.take (64 - pa % 64)).length (bytesNat (bytes.take (64 - pa % 64)))) ∧
      (isDram pa = true → hypervisorFrame s pa = true → bytes ≠ [] →
        (Answers (.cxlMemAccess true pa bytes) s fun t =>
          PortWrote s t pa (bytes.take (64 - pa % 64)).length (bytesNat (bytes.take (64 - pa % 64)))) ∧
        Answers (.cxlMemAccess false pa bytes) s fun t => t.mem = s.mem ∧ t.outbound = s.outbound ++
          [.hostRead pa ((List.range (bytes.take (64 - pa % 64)).length).map fun i => rawByte s (pa + i))]))

/-- R325, R369, R371 to R375: what comes back to a sender whose core is up, no slice being held, and the notices of other modules. A response completes the
RLD or RAMO that waits for it, as a chunk of its own, or traps; an acknowledgement counts down; a timeout traps as cause 15; an item fills its sender's place; an answer completes
QSEND.A; a place returns or its reservation goes; an abort notice sets the abort word and frees its entry; and a reset notice
drops the reservations of its VF. Each arrival counts in its port's agent (R270; log entry 19). That a write which has timed out no longer counts as
sent, that an unregistered sender's item is refused, and that an item enters a queue of KIND 0 too are the model's choices (log entries 61, 66 and
111). -/
def Obligations.RepliesArrive : Prop :=
  ∀ (s : State) (tid n queue smod svf ident : Nat) (value addr lo hi : Word) (d : Reg), let u := switchTo s tid
    let counted (da : Word) (x : State) : State := performNext s (portOf s (fld da 50 11)) (fun _ => x)
    let ports (m : Nat) : List (Nat × Nat) := spPut s.ports (portOf s m) (portNum s (portOf s m) + 1)
    quiet s → s.held = [] → coreUp s (coreOf tid) →
    (u.t.stall = .remote d n addr →
      (ActsAs tid (.remoteResponse tid 0 value) s fun u t => ∃ y, t = counted addr (rebase (commitOpen y)) ∧ y.t.stall = .none ∧ follows u y ∧
        puts u y d ((BitVec.ofNat (8 * n) value.toNat).signExtend 64) ∧ Keeps [.x, .pc, .count, .stall] u y) ∧
      ∀ c, c ≠ 0 → ActsAs tid (.remoteResponse tid c value) s fun u t => t = counted addr (trapHere u c addr)) ∧
    (Answers (.remoteAcknowledgement tid 0 addr) s fun t => (threadAt t tid).unacked = (threadAt s tid).unacked - 1 ∧ t.mem = s.mem ∧
      t.items = s.items) ∧
    ((threadAt s tid).stall = .remote d n addr → (threadAt s tid).sent.any (sentTo addr) = false → ActsAs tid (.remoteTimeout tid addr) s fun u t =>
      t = trapHere (if fld addr 50 11 = 0 then forgetOwn u tid addr false else u) 15 addr ∧ (noDevWrites u → t.t.run = .halted)) ∧
    ((threadAt s tid).stall = .none →
      let vf := (((threadAt s tid).sent.find? (sentTo addr)).map Prod.snd).getD (threadAt s tid).vfid
      let e := devGet s (paVf vf 0x28)
      let q := fld e 0 10
      fld e 63 1 = 1 → qKind s q = 1 → qOwner s q < 64 → poolUsed s < 65536 → Answers (.remoteTimeout tid addr) s fun t =>
        t.items = spPut s.items q (qItems s q ++ [{ lo := BitVec.ofNat 64 (9 * 2 ^ 56 + tid), hi := addr, place := none }]) ∧
        threadAt t tid = { threadAt s tid with sent := (threadAt s tid).sent.eraseP (sentTo addr) } ∧ t.mem = s.mem ∧ t.dev = s.dev) ∧
    (senderEntry s queue smod svf false = none → Answers (.remoteItem smod svf queue lo hi) s fun t =>
      t = { s with outbound := s.outbound ++ [.accepted smod svf false], ports := ports smod }) ∧
    (∀ i, senderEntry s queue smod svf false = some i → Answers (.remoteItem smod svf queue lo hi) s fun t =>
      qItems t queue = qItems s queue ++ [{ lo := lo, hi := hi, place := some i }] ∧
      t.outbound = s.outbound ++ [.accepted smod svf true] ∧ { t with items := s.items, outbound := s.outbound, ports := s.ports } = s) ∧
    ((∀ e ∈ s.resets, tid ∉ e.2) → ∀ ok : Bool,
      let item := (s.outbound.find? (Msg.itemOf tid)).bind Msg.itemVf
      let rest := s.outbound.eraseP (Msg.itemOf tid)
      let plain := item.any fun x => !x.2
      let more := rest.any fun m => m.itemOf tid && m.itemVf.any Prod.snd
      (u.t.stall = .answer d → plain = false → more = false → ActsAs tid (.itemAcceptance tid ok) s fun u t => t.t.stall = .none ∧ follows u t ∧
        puts u t d (if ok then 0 else 4) ∧ t.outbound = rest ∧ Keeps [.x, .pc, .stall, .ckpt, .queues] u t) ∧
      ((plain = true ∨ more = true) → Answers (.itemAcceptance tid ok) s fun t => t = { s with outbound := rest })) ∧
    (let p := queue / 1024 % 2048
     (Answers (.reservationReturn queue false) s fun t =>
        t = { s with credits := spPut s.credits queue (spGet 0 s.credits queue + 1), ports := ports p }) ∧
     Answers (.reservationReturn queue true) s fun t => t = { s with credits := spDel s.credits queue, ports := ports p }) ∧
    (let hit (i : Nat) : Bool := fld (collDw s i 0) 63 1 == 1 && fld (collDw s i 0) 0 32 == ident && isPeer s i smod
     ((∀ i < 256, hit i = false) → Answers (.abortNotice smod ident) s fun t => t = { s with ports := ports smod }) ∧
     ∀ i, (List.range 256).find? hit = some i → Sorted s → portsOpen s → let k := fld (collDw s i 0x10) 3 47 * 8
       Answers (.abortNotice smod ident) s fun t => fld (collDw t i 0) 63 1 = 0 ∧ (rawByte t (k + 7)).getLsbD 7 = true ∧
         (∀ j < 7, rawByte t (k + j) = rawByte s (k + j)) ∧ ∀ p, (p < k ∨ k + 8 ≤ p) → rawByte t p = rawByte s p) ∧
    (Sorted s → Answers (.resetNotice smod svf) s fun t => ∀ i < 4096, let v := devGet s (paSender i 0)
      let named := fld v 63 1 = 1 ∧ fld v 62 1 = 0 ∧ fld v 32 6 = svf ∧ fld v 16 11 = smod
      (named → devGet t (paSender i 0) = 0) ∧ (¬named → devGet t (paSender i 0) = v))

/-- R249, R375, R378 to R381, R389, R429: writes of the management registers. A doorbell puts its item in its queue or reports why not; a
VF's reset halts its threads and, once every item of theirs that has left is answered, frees its groups, VFRESET.BUSY meanwhile
reading 1; a request for pre-emption is left pending or refused; SRAMSIZE zeroes what leaves or joins its window; FLIM is clamped; a change of owner
zeroes a block; and a plain register takes its writable bits. Status 2 of a doorbell that names another module's queue and a reset that acts in one
step are the model's choices (log entries 68 and 77). -/
def Obligations.RegistersAct : Prop :=
  ∀ (s : State) (vf q tid st die core off : Nat) (value : Word),
    quiet s → Sorted s → s.held = [] →
    (q = fld (devGet s (paVf vf 0x10)) 0 21 → vf < 64 →
      let gives (v : Word) : Prop := Answers (.dbhi vf value) s fun t =>
        devGet t (paVf vf 0x18) = v ∧ t.items = s.items
      (1024 ≤ q → gives 2) ∧
      (q < 1024 → (senderEntry s q 0 vf true = none → gives 2) ∧
        ∀ i, senderEntry s q 0 vf true = some i → (qKind s q = 0 → gives 3) ∧
          (qKind s q ≠ 0 → senderPlaces s i ≤ inUse s i → gives 1) ∧
          (qKind s q ≠ 0 → inUse s i < senderPlaces s i → Answers (.dbhi vf value) s fun t => devGet t (paVf vf 0x18) = 0 ∧
            qItems t q = qItems s q ++ [{ lo := devGet s (paVf vf 0), hi := value, place := some i }]))) ∧
    (let done (t : State) (v : Nat) : Prop := (∀ e ∈ t.groups, e.2.owner ≠ v) ∧ Msg.resetNotice v ∈ t.outbound ∧
       ∀ i ∈ liveTids s, i < 336 → (threadAt s i).run ≠ .halted → (threadAt s i).vfid = v → (threadAt t i).run = .halted
     let still (v : Nat) : Prop := itemsOut s v = []
     let busy := fld (devGet s 0x40000000028) 63 1
     (still vf → Answers (.functionLevelReset vf) s fun t => done t vf) ∧
     (¬still vf → vf < 64 → (∀ e ∈ s.resets, e.1 < 64 ∧ e.1 ≠ vf) → Answers (.functionLevelReset vf) s fun t =>
       t.resets = s.resets ++ [(vf, itemsOut s vf)] ∧ fld (devGet t 0x40000000028) 63 1 = 1 ∧
       (s.resets = [] → fld (devGet t 0x40000000028) 0 6 = vf)) ∧
     (busy = 1 → Answers (.vfreset value) s fun t => t = s) ∧
     (busy = 0 → fld value 63 1 = 1 → still (fld value 0 6) → Answers (.vfreset value) s fun t => done t (fld value 0 6)) ∧
     (busy = 0 → fld value 63 1 = 0 → Answers (.vfreset value) s fun t => devGet t 0x40000000028 = BitVec.ofNat 64 (fld value 0 6) ∧
       { t with dev := s.dev } = s)) ∧
    (tid = fld value 0 9 → tid < 336 → 320 ≤ st → st < 336 → let w := threadAt s tid
      (w.run ≠ .halted → (Answers (.preempt st value) s fun t => (threadAt t tid).preH = true ∧
          fld (devGet t 0x40000000020) (st - 320) 1 = 0) ∧
        (w.vfid = vf → vf < 64 → 320 ≤ s.cur → s.cur < 336 → Answers (.vfPreempt vf value) s fun t => (threadAt t tid).preS = true ∧
          fld (devGet t (paVf vf 0x20)) (s.cur - 320) 1 = 0)) ∧
      (w.run = .halted → Answers (.preempt st value) s fun t => fld (devGet t 0x40000000020) (st - 320) 1 = 1 ∧ { t with dev := s.dev } = s) ∧
      ((w.run = .halted ∨ w.vfid ≠ vf) → vf < 64 → 320 ≤ s.cur → s.cur < 336 → Answers (.vfPreempt vf value) s fun t =>
        fld (devGet t (paVf vf 0x20)) (s.cur - 320) 1 = 1 ∧ { t with dev := s.dev } = s)) ∧
    (die < 4 → (16 < fld value 0 5 → Answers (.sramsize die value) s fun t => t = s) ∧
      (fld value 0 5 ≤ 16 → Answers (.sramsize die value) s fun t => let n := fld value 0 5
        let old := fld (devGet s (0x40000000038 + 8 * die)) 0 5
        devGet t (0x40000000038 + 8 * die) = BitVec.ofNat 64 n ∧
        ∀ o, min old n * 1048576 ≤ o → o < max old n * 1048576 → rawByte t (sramKey die o) = 0)) ∧
    (core < 160 → Answers (.flim core value) s fun t => let n := min 1800 (max 1000 (fld value 0 12)) / 25 * 25
      devGet t (0x40000001200 + 8 * core) = BitVec.ofNat 64 n ∧
      (targetOf s core ≤ n → { t with dev := s.dev } = s) ∧
      (n < (coreAt s core).fcur → n ≤ (coreAt s core).cap → stepWaits s core = false → (coreAt s core).waits = false →
        (coreAt s core).stepHeld = none → ∃ t0, (coreAt t core).relock = some (n, t0))) ∧
    (∀ v : Byte, off < 0x300 →
      (ownerByte s off = v.toNat % 128 → Answers (.ownerTableWrite off v) s fun t => t = s) ∧
      (ownerByte s off ≠ v.toNat % 128 → Answers (.ownerTableWrite off v) s fun t => ownerByte t off = v.toNat % 128 ∧
        (off < 0x100 → ∀ e ∈ t.counters, ¬(64 * off ≤ e.1 ∧ e.1 < 64 * off + 64)) ∧
        (0x100 ≤ off → off < 0x200 → ∀ e ∈ t.slots, ¬(16 * (off - 0x100) ≤ e.1 ∧ e.1 < 16 * (off - 0x100) + 16)) ∧
        (0x200 ≤ off → ∀ e ∈ t.groups, ¬(16 * (off - 0x200) ≤ e.1 ∧ e.1 < 16 * (off - 0x200) + 16)))) ∧
    (∀ pa r m, devReg pa = some (r, m) → ((0x40000001000 ≤ pa ∧ pa < 0x40000001200) ∨ (0x40000A00008 ≤ pa ∧ pa < 0x40000A01000) ∨
        (0x40000C40000 ≤ pa ∧ pa < 0x40000C62400)) → Answers (.registerWrite pa value) s fun t =>
      devGet t pa = (devGet s pa &&& ~~~(BitVec.ofNat 64 m)) ||| (value &&& BitVec.ofNat 64 m) ∧
      (∀ p, p ≠ pa → devGet t p = devGet s p) ∧ { t with dev := s.dev } = s) ∧
    (Answers (.registerWrite 0x40000001000 value) s fun t => devGet t 0x40000001000 =
        (devGet s 0x40000001000 &&& 0xFFFFFFFFFFFF0000) ||| (value &&& 0xFFFF) ∧
      { t with dev := s.dev } = s) ∧
    (value.toNat % 4 = 3 → Answers (.registerWrite 0x40000A00000 value) s fun t => t = s)

/-- R83, R152, R219, R254, R292, R394, R407, R414, R415: accesses that wait for a pass, the registers that they then write, and a sample of
the trace. With no pass in flight, on a core that is up, each acts at once; FSTAT and a lane counter wait for the last chunk of the completed
pass. -/
def Obligations.ThreadEventsAct : Prop :=
  ∀ (s : State) (tid i : Nat) (value : Word) (b : Bool), let u := switchTo s tid
    let v := settleSealed u
    u.t.pass = none → coreUp s (coreOf tid) →
    ((∀ m ∈ v.c.mat, m.tid ≠ v.cur) → ActsAs tid (.fstatAccess tid) s fun u t => t = settleSealed u) ∧
    (u.t.lvl = .u → (ActsAs tid (.capAreaWrite tid b value) s fun u t => t = u) ∧ ActsAs tid (.ctxbaseWrite tid value) s fun u t => t = u) ∧
    (u.t.lvl ≠ .u → (ActsAs tid (.capAreaWrite tid b value) s fun u t =>
        (if b then t.t.a.capSize else t.t.a.capBase) = BitVec.ofNat 64 (value.toNat / 2 ^ 12 % 2 ^ 40 * 2 ^ 12) ∧
        modA t (fun a => { a with capSize := u.t.a.capSize, capBase := u.t.a.capBase }) = u) ∧
      ActsAs tid (.ctxbaseWrite tid value) s fun u t =>
        t.t.ctxbase = BitVec.ofNat 64 (value.toNat / 2 ^ 12 % 2 ^ 40 * 2 ^ 12) ∧
        (∀ r : Reg, (t.t.a.v[r.toNat]'(r.isLt)).dirty = true ∧ vreg t.t.a r = vreg u.t.a r) ∧
        ∀ j : Fin 7, (t.t.a.m[j]).dirty = true) ∧
    (ActsAs tid (.vrsWrite tid b value) s fun u t =>
      t.t.a.vrs = (if b then #v[u.t.a.vrs[0], u.t.a.vrs[1], value.toNat % 2 ^ 31, value.toNat / 2 ^ 32 % 2 ^ 31]
        else #v[value.toNat % 2 ^ 31, value.toNat / 2 ^ 32 % 2 ^ 31, u.t.a.vrs[2], u.t.a.vrs[3]]) ∧
      modA t (fun a => { a with vrs := u.t.a.vrs }) = u) ∧
    (ActsAs tid (.chklimWrite tid value) s fun u t => t.t.a.chkEff = u.t.a.chkEff ∧ t.t.a.chkNext = some t.t.a.chkLim ∧
      t.t.a.chkLim = (if value.toNat % 8192 = 0 ∨ 4096 < value.toNat % 8192 then 4096 else value.toNat % 8192) ∧ Keeps [.chklim] u t) ∧
    (ActsAs tid (.evfWrite tid value) s fun u t => Keeps [.events] u t ∧ t.t.a.evs = u.t.a.evs ∧
      ∀ j < 16, t.t.a.done.getLsbD j = (u.t.a.done.getLsbD j && !value.getLsbD j) ∧
        t.t.a.efault.getLsbD j = (u.t.a.efault.getLsbD j && !value.getLsbD (16 + j))) ∧
    (ActsAs tid (.laneCounterRead tid i) s fun u t => t = settleSealed u) ∧
    ((devGet u (paDebug u.cur 0x48)).toNat / 2 ^ 32 % 65536 = 0 → ActsAs tid (.traceSample tid) s fun u t => t = u) ∧
    (let c := devGet u (paDebug u.cur 0x48)
     c.toNat / 2 ^ 32 % 65536 ≠ 0 → u.cur = tid → u.t.lvl ≠ .h → c.getLsbD 8 = true → ActsAs tid (.traceSample tid) s fun u t =>
      (∃ r : TraceRec, t.c.ring = spPut u.c.ring u.c.ringNext r ∧ r.d0.toNat / 2 ^ 58 = 8 ∧ r.d0.toNat % 2 ^ 52 = u.t.a.pc % 2 ^ 52 ∧
        r.d1 = u.c.cyc ∧ r.d2 = 0 ∧ r.d3 = 0) ∧ t.c.ringNext = (u.c.ringNext + 1) % 512 ∧ Keeps [.trace] u t)

/-- R34, R46, R87, R89, R272, R275, R276, R283, R391, R410: where the thread that moves has its turn with nothing before its next instruction, and
the bytes at its program counter decode to an instruction, a step executes it, after the cycle in which it issues (R133), and notes when its results
are there (R128); where it has marked entries of a page table, these are written and broadcast first (R349). Where what it needs does not fit its
chunk, the chunk closes first; and where its own commit would undo a chunk that it rests on, that one commits first (the model's choice, log entry
122). -/
def Obligations.StepRunsTheInstruction : Prop :=
  ∀ (s u : State) (l : List Due) (w : Nat) (i : Instr) (t : State), let s1 := { s with agenda := l }
    let z := issued u
    let lands (x : State) : Prop := ∀ y, takesPlace s (noteWait (coreOf s.cur) x) = some y → step s = .next y
    let waits (x : State) : Prop := lands (modT x fun y => { y with begun := some z.t.a.pc })
    ((s.agenda = .run s.cur :: l ∧ slotFor s1 s.cur = s.cur) ∨ (s.agenda = [] ∧ l = [] ∧ slotFor s (nextLive s) = s.cur)) →
    s.holdReset = false → quiet s → s.held = [] → s.c.relock = none → s.c.gated = false → s.c.off = false → s.c.waits = false →
    s.c.stepHeld = none → s.t.run = .running → s.t.pass = none → s.t.stall = .none → s.t.deferred = none → s.t.dropped = false →
    closesHere s1 = false → ownHit s1 = false → mustWait s1 = false → preBoundary s1 = false → uiBoundary s1 = false →
    fetchControl (cyclesPass s1 1) = (u, .ok w) → lateness u w = 0 → breaksHere u = false → decode w = .ok i → exec i z = .next t →
    (undercut z t = false → (fits t = true ∨ t.cur ≠ z.cur) → lands (acted i w z t)) ∧
    (undercut z t = false → fits t = false → t.cur = z.cur → z.t.chunk.idle = false → outside t = false →
      (entriesFull t = true → z.t.chunk.lines ≠ []) → waits (closeLater (bumpStat z 4 1))) ∧
    (undercut z t = true → waits (if z.t.closed.isSome then commitClosed z else settleSealed z)) ∧
    ∀ x : State, x.outOfTurn = false → x.marked = [] → takesPlace s x = some x

/-- R29 to R34, R53, R54: five control words written out from the encoding tables, of SUB, ADDI, CSEL, BEQ and LD, and the instructions that they
stand for; and that word 0 stands for none. -/
def Obligations.WordsDecode : Prop :=
  (decode 0b00000100001000100001100000100000).toOption = some (.sub 1 2 3) ∧
  (decode 0b00001000001000101111111111111111).toOption = some (.addi 1 2 0xFFFF) ∧
  (decode 0b00101000001000100001100100000000).toOption = some (.csel 1 2 3) ∧
  (decode 0b00110000001000101111111111111110).toOption = some (.beq 1 2 0xFFFE) ∧
  (decode 0b01100000001000100000000001000110).toOption = some (.ld 1 2 8 3 0) ∧
  (decode 0).toOption = none

/-- R29 to R34, R53: the encoding of every well-formed instruction decodes to it. -/
def Obligations.EncodingsDecode : Prop :=
  ∀ i : Instr, i.wf = true → isEvent i = false → decode (encode i) = .ok i

/-- R29 to R34, R53: a control word that decodes is the encoding of what it decodes to, which is well formed: no other word means the
same, and no bit of it is dropped. -/
def Obligations.DecodingsEncode : Prop :=
  ∀ (w : Nat) (i : Instr), w < 2 ^ 32 → decode w = .ok i → encode i = w ∧ i.wf = true

/-- The form of the model's lists is kept by every step: memory stays canonical, so that equal memories are equal data, and every sparse
list stays in order. -/
def Obligations.StepsKeepForm : Prop :=
 ∀ s t : State, Sorted s → step s = .next t → Sorted t

/-- R87, R103, R127, R419, R426, R428: what reset leaves: steward 0 RUNNING at H, every other thread HALTED, compute cores at 1,000 MHz and
stewards at 1,500, no error, and the form of the model's lists. That the registers are zero is the model's choice (log entry 1), as is that no memory
is listed and every byte of it reads zero (log entry 9); MEAS is the hash of the boot image, which lies where log entry 12 says. -/
def Obligations.ResetState : Prop :=
  let s := State.reset
  Sorted s ∧ s.cur = 320 ∧ s.t.run = .running ∧ s.t.lvl = .h ∧ (∀ r : Reg, rd s r = 0) ∧
  (∀ tid, tid ≠ 320 → (threadAt s tid).run = .halted) ∧ (∀ core < 160, (coreAt s core).fcur = 1000) ∧
  (∀ core, 160 ≤ core → (coreAt s core).fcur = 1500) ∧ (∀ k, rawByte s k = 0) ∧ s.holdReset = false ∧ s.stopped = false ∧
  s.meas = bootMeas

/-- R426: unless every core is held in reset, in which case nothing issues, a step has a next state: no program, no trap and no event
stops the module. Held in reset it does what is due that acts on the module, its units or its host link alone, another reset among it, and stops where
nothing of it is. -/
def Obligations.StepsProceed : Prop :=
  ∀ s : State, let due := s.agenda.find? Due.ofModule
    (s.holdReset = false → ∃ t, step s = .next t) ∧ (s.holdReset = true → due = none → step s = .fault .heldInReset) ∧
    (s.holdReset = true → ∀ d, due = some d → let u := { s with agenda := s.agenda.erase d }
      (∀ i, d = .event i → ∃ t, exec i u = .next t ∧ step s = .next t) ∧ ∀ x, d = .upset x → step s = .next (upset x u))
end

