-- ==== Sys2Proof/Laws/State.lean ====
section
/-! SUPPORT. Laws/State.lean: what each small update of the state leaves as it was, field by field, and the reading and writing of
registers. -/

namespace Sys2Proof.Machine

open Sys2Proof

@[simp] theorem modT_cur (s : State) (g : Thread → Thread) : (modT s g).cur = s.cur := rfl
@[simp] theorem modA_cur (s : State) (g : Arch → Arch) : (modA s g).cur = s.cur := rfl
@[simp] theorem setPc_cur (s : State) (p : Nat) : (setPc s p).cur = s.cur := rfl
@[simp] theorem countOne_cur (s : State) : (countOne s).cur = s.cur := rfl
@[simp] theorem goTo_cur (s : State) (p : Nat) : (goTo s p).cur = s.cur := rfl
@[simp] theorem complete_cur (s : State) : (complete s).cur = s.cur := rfl
@[simp] theorem wr_cur (s : State) (r : Reg) (v : Word) : (wr s r v).cur = s.cur := by unfold wr; split <;> rfl
@[simp] theorem modT_c (s : State) (g : Thread → Thread) : (modT s g).c = s.c := rfl
@[simp] theorem modA_c (s : State) (g : Arch → Arch) : (modA s g).c = s.c := rfl
@[simp] theorem setPc_c (s : State) (p : Nat) : (setPc s p).c = s.c := rfl
@[simp] theorem countOne_c (s : State) : (countOne s).c = s.c := rfl
@[simp] theorem goTo_c (s : State) (p : Nat) : (goTo s p).c = s.c := rfl
@[simp] theorem complete_c (s : State) : (complete s).c = s.c := rfl
@[simp] theorem wr_c (s : State) (r : Reg) (v : Word) : (wr s r v).c = s.c := by unfold wr; split <;> rfl
@[simp] theorem modT_threads (s : State) (g : Thread → Thread) : (modT s g).threads = s.threads := rfl
@[simp] theorem modA_threads (s : State) (g : Arch → Arch) : (modA s g).threads = s.threads := rfl
@[simp] theorem setPc_threads (s : State) (p : Nat) : (setPc s p).threads = s.threads := rfl
@[simp] theorem countOne_threads (s : State) : (countOne s).threads = s.threads := rfl
@[simp] theorem goTo_threads (s : State) (p : Nat) : (goTo s p).threads = s.threads := rfl
@[simp] theorem complete_threads (s : State) : (complete s).threads = s.threads := rfl
@[simp] theorem wr_threads (s : State) (r : Reg) (v : Word) : (wr s r v).threads = s.threads := by unfold wr; split <;> rfl
@[simp] theorem modT_cores (s : State) (g : Thread → Thread) : (modT s g).cores = s.cores := rfl
@[simp] theorem modA_cores (s : State) (g : Arch → Arch) : (modA s g).cores = s.cores := rfl
@[simp] theorem setPc_cores (s : State) (p : Nat) : (setPc s p).cores = s.cores := rfl
@[simp] theorem countOne_cores (s : State) : (countOne s).cores = s.cores := rfl
@[simp] theorem goTo_cores (s : State) (p : Nat) : (goTo s p).cores = s.cores := rfl
@[simp] theorem complete_cores (s : State) : (complete s).cores = s.cores := rfl
@[simp] theorem wr_cores (s : State) (r : Reg) (v : Word) : (wr s r v).cores = s.cores := by unfold wr; split <;> rfl
@[simp] theorem modT_mem (s : State) (g : Thread → Thread) : (modT s g).mem = s.mem := rfl
@[simp] theorem modA_mem (s : State) (g : Arch → Arch) : (modA s g).mem = s.mem := rfl
@[simp] theorem setPc_mem (s : State) (p : Nat) : (setPc s p).mem = s.mem := rfl
@[simp] theorem countOne_mem (s : State) : (countOne s).mem = s.mem := rfl
@[simp] theorem goTo_mem (s : State) (p : Nat) : (goTo s p).mem = s.mem := rfl
@[simp] theorem complete_mem (s : State) : (complete s).mem = s.mem := rfl
@[simp] theorem wr_mem (s : State) (r : Reg) (v : Word) : (wr s r v).mem = s.mem := by unfold wr; split <;> rfl
@[simp] theorem modT_poison (s : State) (g : Thread → Thread) : (modT s g).poison = s.poison := rfl
@[simp] theorem modA_poison (s : State) (g : Arch → Arch) : (modA s g).poison = s.poison := rfl
@[simp] theorem setPc_poison (s : State) (p : Nat) : (setPc s p).poison = s.poison := rfl
@[simp] theorem countOne_poison (s : State) : (countOne s).poison = s.poison := rfl
@[simp] theorem goTo_poison (s : State) (p : Nat) : (goTo s p).poison = s.poison := rfl
@[simp] theorem complete_poison (s : State) : (complete s).poison = s.poison := rfl
@[simp] theorem wr_poison (s : State) (r : Reg) (v : Word) : (wr s r v).poison = s.poison := by unfold wr; split <;> rfl
@[simp] theorem modT_dev (s : State) (g : Thread → Thread) : (modT s g).dev = s.dev := rfl
@[simp] theorem modA_dev (s : State) (g : Arch → Arch) : (modA s g).dev = s.dev := rfl
@[simp] theorem setPc_dev (s : State) (p : Nat) : (setPc s p).dev = s.dev := rfl
@[simp] theorem countOne_dev (s : State) : (countOne s).dev = s.dev := rfl
@[simp] theorem goTo_dev (s : State) (p : Nat) : (goTo s p).dev = s.dev := rfl
@[simp] theorem complete_dev (s : State) : (complete s).dev = s.dev := rfl
@[simp] theorem wr_dev (s : State) (r : Reg) (v : Word) : (wr s r v).dev = s.dev := by unfold wr; split <;> rfl
@[simp] theorem modT_keyGen (s : State) (g : Thread → Thread) : (modT s g).keyGen = s.keyGen := rfl
@[simp] theorem modA_keyGen (s : State) (g : Arch → Arch) : (modA s g).keyGen = s.keyGen := rfl
@[simp] theorem setPc_keyGen (s : State) (p : Nat) : (setPc s p).keyGen = s.keyGen := rfl
@[simp] theorem countOne_keyGen (s : State) : (countOne s).keyGen = s.keyGen := rfl
@[simp] theorem goTo_keyGen (s : State) (p : Nat) : (goTo s p).keyGen = s.keyGen := rfl
@[simp] theorem complete_keyGen (s : State) : (complete s).keyGen = s.keyGen := rfl
@[simp] theorem wr_keyGen (s : State) (r : Reg) (v : Word) : (wr s r v).keyGen = s.keyGen := by unfold wr; split <;> rfl
@[simp] theorem modT_keys (s : State) (g : Thread → Thread) : (modT s g).keys = s.keys := rfl
@[simp] theorem modA_keys (s : State) (g : Arch → Arch) : (modA s g).keys = s.keys := rfl
@[simp] theorem setPc_keys (s : State) (p : Nat) : (setPc s p).keys = s.keys := rfl
@[simp] theorem countOne_keys (s : State) : (countOne s).keys = s.keys := rfl
@[simp] theorem goTo_keys (s : State) (p : Nat) : (goTo s p).keys = s.keys := rfl
@[simp] theorem complete_keys (s : State) : (complete s).keys = s.keys := rfl
@[simp] theorem wr_keys (s : State) (r : Reg) (v : Word) : (wr s r v).keys = s.keys := by unfold wr; split <;> rfl
@[simp] theorem modT_lineGen (s : State) (g : Thread → Thread) : (modT s g).lineGen = s.lineGen := rfl
@[simp] theorem modA_lineGen (s : State) (g : Arch → Arch) : (modA s g).lineGen = s.lineGen := rfl
@[simp] theorem setPc_lineGen (s : State) (p : Nat) : (setPc s p).lineGen = s.lineGen := rfl
@[simp] theorem countOne_lineGen (s : State) : (countOne s).lineGen = s.lineGen := rfl
@[simp] theorem goTo_lineGen (s : State) (p : Nat) : (goTo s p).lineGen = s.lineGen := rfl
@[simp] theorem complete_lineGen (s : State) : (complete s).lineGen = s.lineGen := rfl
@[simp] theorem wr_lineGen (s : State) (r : Reg) (v : Word) : (wr s r v).lineGen = s.lineGen := by unfold wr; split <;> rfl
@[simp] theorem modT_tlb (s : State) (g : Thread → Thread) : (modT s g).tlb = s.tlb := rfl
@[simp] theorem modA_tlb (s : State) (g : Arch → Arch) : (modA s g).tlb = s.tlb := rfl
@[simp] theorem setPc_tlb (s : State) (p : Nat) : (setPc s p).tlb = s.tlb := rfl
@[simp] theorem countOne_tlb (s : State) : (countOne s).tlb = s.tlb := rfl
@[simp] theorem goTo_tlb (s : State) (p : Nat) : (goTo s p).tlb = s.tlb := rfl
@[simp] theorem complete_tlb (s : State) : (complete s).tlb = s.tlb := rfl
@[simp] theorem wr_tlb (s : State) (r : Reg) (v : Word) : (wr s r v).tlb = s.tlb := by unfold wr; split <;> rfl
@[simp] theorem modT_panels (s : State) (g : Thread → Thread) : (modT s g).panels = s.panels := rfl
@[simp] theorem modA_panels (s : State) (g : Arch → Arch) : (modA s g).panels = s.panels := rfl
@[simp] theorem setPc_panels (s : State) (p : Nat) : (setPc s p).panels = s.panels := rfl
@[simp] theorem countOne_panels (s : State) : (countOne s).panels = s.panels := rfl
@[simp] theorem goTo_panels (s : State) (p : Nat) : (goTo s p).panels = s.panels := rfl
@[simp] theorem complete_panels (s : State) : (complete s).panels = s.panels := rfl
@[simp] theorem wr_panels (s : State) (r : Reg) (v : Word) : (wr s r v).panels = s.panels := by unfold wr; split <;> rfl
@[simp] theorem modT_nextSeq (s : State) (g : Thread → Thread) : (modT s g).nextSeq = s.nextSeq := rfl
@[simp] theorem modA_nextSeq (s : State) (g : Arch → Arch) : (modA s g).nextSeq = s.nextSeq := rfl
@[simp] theorem setPc_nextSeq (s : State) (p : Nat) : (setPc s p).nextSeq = s.nextSeq := rfl
@[simp] theorem countOne_nextSeq (s : State) : (countOne s).nextSeq = s.nextSeq := rfl
@[simp] theorem goTo_nextSeq (s : State) (p : Nat) : (goTo s p).nextSeq = s.nextSeq := rfl
@[simp] theorem complete_nextSeq (s : State) : (complete s).nextSeq = s.nextSeq := rfl
@[simp] theorem wr_nextSeq (s : State) (r : Reg) (v : Word) : (wr s r v).nextSeq = s.nextSeq := by unfold wr; split <;> rfl
@[simp] theorem modT_nextOrder (s : State) (g : Thread → Thread) : (modT s g).nextOrder = s.nextOrder := rfl
@[simp] theorem modA_nextOrder (s : State) (g : Arch → Arch) : (modA s g).nextOrder = s.nextOrder := rfl
@[simp] theorem setPc_nextOrder (s : State) (p : Nat) : (setPc s p).nextOrder = s.nextOrder := rfl
@[simp] theorem countOne_nextOrder (s : State) : (countOne s).nextOrder = s.nextOrder := rfl
@[simp] theorem goTo_nextOrder (s : State) (p : Nat) : (goTo s p).nextOrder = s.nextOrder := rfl
@[simp] theorem complete_nextOrder (s : State) : (complete s).nextOrder = s.nextOrder := rfl
@[simp] theorem wr_nextOrder (s : State) (r : Reg) (v : Word) : (wr s r v).nextOrder = s.nextOrder := by unfold wr; split <;> rfl
@[simp] theorem modT_items (s : State) (g : Thread → Thread) : (modT s g).items = s.items := rfl
@[simp] theorem modA_items (s : State) (g : Arch → Arch) : (modA s g).items = s.items := rfl
@[simp] theorem setPc_items (s : State) (p : Nat) : (setPc s p).items = s.items := rfl
@[simp] theorem countOne_items (s : State) : (countOne s).items = s.items := rfl
@[simp] theorem goTo_items (s : State) (p : Nat) : (goTo s p).items = s.items := rfl
@[simp] theorem complete_items (s : State) : (complete s).items = s.items := rfl
@[simp] theorem wr_items (s : State) (r : Reg) (v : Word) : (wr s r v).items = s.items := by unfold wr; split <;> rfl
@[simp] theorem modT_counters (s : State) (g : Thread → Thread) : (modT s g).counters = s.counters := rfl
@[simp] theorem modA_counters (s : State) (g : Arch → Arch) : (modA s g).counters = s.counters := rfl
@[simp] theorem setPc_counters (s : State) (p : Nat) : (setPc s p).counters = s.counters := rfl
@[simp] theorem countOne_counters (s : State) : (countOne s).counters = s.counters := rfl
@[simp] theorem goTo_counters (s : State) (p : Nat) : (goTo s p).counters = s.counters := rfl
@[simp] theorem complete_counters (s : State) : (complete s).counters = s.counters := rfl
@[simp] theorem wr_counters (s : State) (r : Reg) (v : Word) : (wr s r v).counters = s.counters := by unfold wr; split <;> rfl
@[simp] theorem modT_slots (s : State) (g : Thread → Thread) : (modT s g).slots = s.slots := rfl
@[simp] theorem modA_slots (s : State) (g : Arch → Arch) : (modA s g).slots = s.slots := rfl
@[simp] theorem setPc_slots (s : State) (p : Nat) : (setPc s p).slots = s.slots := rfl
@[simp] theorem countOne_slots (s : State) : (countOne s).slots = s.slots := rfl
@[simp] theorem goTo_slots (s : State) (p : Nat) : (goTo s p).slots = s.slots := rfl
@[simp] theorem complete_slots (s : State) : (complete s).slots = s.slots := rfl
@[simp] theorem wr_slots (s : State) (r : Reg) (v : Word) : (wr s r v).slots = s.slots := by unfold wr; split <;> rfl
@[simp] theorem modT_groups (s : State) (g : Thread → Thread) : (modT s g).groups = s.groups := rfl
@[simp] theorem modA_groups (s : State) (g : Arch → Arch) : (modA s g).groups = s.groups := rfl
@[simp] theorem setPc_groups (s : State) (p : Nat) : (setPc s p).groups = s.groups := rfl
@[simp] theorem countOne_groups (s : State) : (countOne s).groups = s.groups := rfl
@[simp] theorem goTo_groups (s : State) (p : Nat) : (goTo s p).groups = s.groups := rfl
@[simp] theorem complete_groups (s : State) : (complete s).groups = s.groups := rfl
@[simp] theorem wr_groups (s : State) (r : Reg) (v : Word) : (wr s r v).groups = s.groups := by unfold wr; split <;> rfl
@[simp] theorem modT_engines (s : State) (g : Thread → Thread) : (modT s g).engines = s.engines := rfl
@[simp] theorem modA_engines (s : State) (g : Arch → Arch) : (modA s g).engines = s.engines := rfl
@[simp] theorem setPc_engines (s : State) (p : Nat) : (setPc s p).engines = s.engines := rfl
@[simp] theorem countOne_engines (s : State) : (countOne s).engines = s.engines := rfl
@[simp] theorem goTo_engines (s : State) (p : Nat) : (goTo s p).engines = s.engines := rfl
@[simp] theorem complete_engines (s : State) : (complete s).engines = s.engines := rfl
@[simp] theorem wr_engines (s : State) (r : Reg) (v : Word) : (wr s r v).engines = s.engines := by unfold wr; split <;> rfl
@[simp] theorem modT_wakes (s : State) (g : Thread → Thread) : (modT s g).wakes = s.wakes := rfl
@[simp] theorem modA_wakes (s : State) (g : Arch → Arch) : (modA s g).wakes = s.wakes := rfl
@[simp] theorem setPc_wakes (s : State) (p : Nat) : (setPc s p).wakes = s.wakes := rfl
@[simp] theorem countOne_wakes (s : State) : (countOne s).wakes = s.wakes := rfl
@[simp] theorem goTo_wakes (s : State) (p : Nat) : (goTo s p).wakes = s.wakes := rfl
@[simp] theorem complete_wakes (s : State) : (complete s).wakes = s.wakes := rfl
@[simp] theorem wr_wakes (s : State) (r : Reg) (v : Word) : (wr s r v).wakes = s.wakes := by unfold wr; split <;> rfl
@[simp] theorem modT_outbound (s : State) (g : Thread → Thread) : (modT s g).outbound = s.outbound := rfl
@[simp] theorem modA_outbound (s : State) (g : Arch → Arch) : (modA s g).outbound = s.outbound := rfl
@[simp] theorem setPc_outbound (s : State) (p : Nat) : (setPc s p).outbound = s.outbound := rfl
@[simp] theorem countOne_outbound (s : State) : (countOne s).outbound = s.outbound := rfl
@[simp] theorem goTo_outbound (s : State) (p : Nat) : (goTo s p).outbound = s.outbound := rfl
@[simp] theorem complete_outbound (s : State) : (complete s).outbound = s.outbound := rfl
@[simp] theorem wr_outbound (s : State) (r : Reg) (v : Word) : (wr s r v).outbound = s.outbound := by unfold wr; split <;> rfl
@[simp] theorem modT_credits (s : State) (g : Thread → Thread) : (modT s g).credits = s.credits := rfl
@[simp] theorem modA_credits (s : State) (g : Arch → Arch) : (modA s g).credits = s.credits := rfl
@[simp] theorem setPc_credits (s : State) (p : Nat) : (setPc s p).credits = s.credits := rfl
@[simp] theorem countOne_credits (s : State) : (countOne s).credits = s.credits := rfl
@[simp] theorem goTo_credits (s : State) (p : Nat) : (goTo s p).credits = s.credits := rfl
@[simp] theorem complete_credits (s : State) : (complete s).credits = s.credits := rfl
@[simp] theorem wr_credits (s : State) (r : Reg) (v : Word) : (wr s r v).credits = s.credits := by unfold wr; split <;> rfl
@[simp] theorem modT_grantLog (s : State) (g : Thread → Thread) : (modT s g).grantLog = s.grantLog := rfl
@[simp] theorem modA_grantLog (s : State) (g : Arch → Arch) : (modA s g).grantLog = s.grantLog := rfl
@[simp] theorem setPc_grantLog (s : State) (p : Nat) : (setPc s p).grantLog = s.grantLog := rfl
@[simp] theorem countOne_grantLog (s : State) : (countOne s).grantLog = s.grantLog := rfl
@[simp] theorem goTo_grantLog (s : State) (p : Nat) : (goTo s p).grantLog = s.grantLog := rfl
@[simp] theorem complete_grantLog (s : State) : (complete s).grantLog = s.grantLog := rfl
@[simp] theorem wr_grantLog (s : State) (r : Reg) (v : Word) : (wr s r v).grantLog = s.grantLog := by unfold wr; split <;> rfl
@[simp] theorem modT_held (s : State) (g : Thread → Thread) : (modT s g).held = s.held := rfl
@[simp] theorem modA_held (s : State) (g : Arch → Arch) : (modA s g).held = s.held := rfl
@[simp] theorem setPc_held (s : State) (p : Nat) : (setPc s p).held = s.held := rfl
@[simp] theorem countOne_held (s : State) : (countOne s).held = s.held := rfl
@[simp] theorem goTo_held (s : State) (p : Nat) : (goTo s p).held = s.held := rfl
@[simp] theorem complete_held (s : State) : (complete s).held = s.held := rfl
@[simp] theorem wr_held (s : State) (r : Reg) (v : Word) : (wr s r v).held = s.held := by unfold wr; split <;> rfl
@[simp] theorem modT_meas (s : State) (g : Thread → Thread) : (modT s g).meas = s.meas := rfl
@[simp] theorem modA_meas (s : State) (g : Arch → Arch) : (modA s g).meas = s.meas := rfl
@[simp] theorem setPc_meas (s : State) (p : Nat) : (setPc s p).meas = s.meas := rfl
@[simp] theorem countOne_meas (s : State) : (countOne s).meas = s.meas := rfl
@[simp] theorem goTo_meas (s : State) (p : Nat) : (goTo s p).meas = s.meas := rfl
@[simp] theorem complete_meas (s : State) : (complete s).meas = s.meas := rfl
@[simp] theorem wr_meas (s : State) (r : Reg) (v : Word) : (wr s r v).meas = s.meas := by unfold wr; split <;> rfl
@[simp] theorem modT_holdReset (s : State) (g : Thread → Thread) : (modT s g).holdReset = s.holdReset := rfl
@[simp] theorem modA_holdReset (s : State) (g : Arch → Arch) : (modA s g).holdReset = s.holdReset := rfl
@[simp] theorem setPc_holdReset (s : State) (p : Nat) : (setPc s p).holdReset = s.holdReset := rfl
@[simp] theorem countOne_holdReset (s : State) : (countOne s).holdReset = s.holdReset := rfl
@[simp] theorem goTo_holdReset (s : State) (p : Nat) : (goTo s p).holdReset = s.holdReset := rfl
@[simp] theorem complete_holdReset (s : State) : (complete s).holdReset = s.holdReset := rfl
@[simp] theorem wr_holdReset (s : State) (r : Reg) (v : Word) : (wr s r v).holdReset = s.holdReset := by unfold wr; split <;> rfl
@[simp] theorem modT_healthy (s : State) (g : Thread → Thread) : (modT s g).healthy = s.healthy := rfl
@[simp] theorem modA_healthy (s : State) (g : Arch → Arch) : (modA s g).healthy = s.healthy := rfl
@[simp] theorem setPc_healthy (s : State) (p : Nat) : (setPc s p).healthy = s.healthy := rfl
@[simp] theorem countOne_healthy (s : State) : (countOne s).healthy = s.healthy := rfl
@[simp] theorem goTo_healthy (s : State) (p : Nat) : (goTo s p).healthy = s.healthy := rfl
@[simp] theorem complete_healthy (s : State) : (complete s).healthy = s.healthy := rfl
@[simp] theorem wr_healthy (s : State) (r : Reg) (v : Word) : (wr s r v).healthy = s.healthy := by unfold wr; split <;> rfl
@[simp] theorem modT_draws (s : State) (g : Thread → Thread) : (modT s g).draws = s.draws := rfl
@[simp] theorem modA_draws (s : State) (g : Arch → Arch) : (modA s g).draws = s.draws := rfl
@[simp] theorem setPc_draws (s : State) (p : Nat) : (setPc s p).draws = s.draws := rfl
@[simp] theorem countOne_draws (s : State) : (countOne s).draws = s.draws := rfl
@[simp] theorem goTo_draws (s : State) (p : Nat) : (goTo s p).draws = s.draws := rfl
@[simp] theorem complete_draws (s : State) : (complete s).draws = s.draws := rfl
@[simp] theorem wr_draws (s : State) (r : Reg) (v : Word) : (wr s r v).draws = s.draws := by unfold wr; split <;> rfl
@[simp] theorem modT_stopped (s : State) (g : Thread → Thread) : (modT s g).stopped = s.stopped := rfl
@[simp] theorem modA_stopped (s : State) (g : Arch → Arch) : (modA s g).stopped = s.stopped := rfl
@[simp] theorem setPc_stopped (s : State) (p : Nat) : (setPc s p).stopped = s.stopped := rfl
@[simp] theorem countOne_stopped (s : State) : (countOne s).stopped = s.stopped := rfl
@[simp] theorem goTo_stopped (s : State) (p : Nat) : (goTo s p).stopped = s.stopped := rfl
@[simp] theorem complete_stopped (s : State) : (complete s).stopped = s.stopped := rfl
@[simp] theorem wr_stopped (s : State) (r : Reg) (v : Word) : (wr s r v).stopped = s.stopped := by unfold wr; split <;> rfl
@[simp] theorem modT_journal (s : State) (g : Thread → Thread) : (modT s g).journal = s.journal := rfl
@[simp] theorem modA_journal (s : State) (g : Arch → Arch) : (modA s g).journal = s.journal := rfl
@[simp] theorem setPc_journal (s : State) (p : Nat) : (setPc s p).journal = s.journal := rfl
@[simp] theorem countOne_journal (s : State) : (countOne s).journal = s.journal := rfl
@[simp] theorem goTo_journal (s : State) (p : Nat) : (goTo s p).journal = s.journal := rfl
@[simp] theorem complete_journal (s : State) : (complete s).journal = s.journal := rfl
@[simp] theorem wr_journal (s : State) (r : Reg) (v : Word) : (wr s r v).journal = s.journal := by unfold wr; split <;> rfl
@[simp] theorem modT_replayPos (s : State) (g : Thread → Thread) : (modT s g).replayPos = s.replayPos := rfl
@[simp] theorem modA_replayPos (s : State) (g : Arch → Arch) : (modA s g).replayPos = s.replayPos := rfl
@[simp] theorem setPc_replayPos (s : State) (p : Nat) : (setPc s p).replayPos = s.replayPos := rfl
@[simp] theorem countOne_replayPos (s : State) : (countOne s).replayPos = s.replayPos := rfl
@[simp] theorem goTo_replayPos (s : State) (p : Nat) : (goTo s p).replayPos = s.replayPos := rfl
@[simp] theorem complete_replayPos (s : State) : (complete s).replayPos = s.replayPos := rfl
@[simp] theorem wr_replayPos (s : State) (r : Reg) (v : Word) : (wr s r v).replayPos = s.replayPos := by unfold wr; split <;> rfl
@[simp] theorem modT_jmode (s : State) (g : Thread → Thread) : (modT s g).jmode = s.jmode := rfl
@[simp] theorem modA_jmode (s : State) (g : Arch → Arch) : (modA s g).jmode = s.jmode := rfl
@[simp] theorem setPc_jmode (s : State) (p : Nat) : (setPc s p).jmode = s.jmode := rfl
@[simp] theorem countOne_jmode (s : State) : (countOne s).jmode = s.jmode := rfl
@[simp] theorem goTo_jmode (s : State) (p : Nat) : (goTo s p).jmode = s.jmode := rfl
@[simp] theorem complete_jmode (s : State) : (complete s).jmode = s.jmode := rfl
@[simp] theorem wr_jmode (s : State) (r : Reg) (v : Word) : (wr s r v).jmode = s.jmode := by unfold wr; split <;> rfl
@[simp] theorem modT_jbase (s : State) (g : Thread → Thread) : (modT s g).jbase = s.jbase := rfl
@[simp] theorem modA_jbase (s : State) (g : Arch → Arch) : (modA s g).jbase = s.jbase := rfl
@[simp] theorem setPc_jbase (s : State) (p : Nat) : (setPc s p).jbase = s.jbase := rfl
@[simp] theorem countOne_jbase (s : State) : (countOne s).jbase = s.jbase := rfl
@[simp] theorem goTo_jbase (s : State) (p : Nat) : (goTo s p).jbase = s.jbase := rfl
@[simp] theorem complete_jbase (s : State) : (complete s).jbase = s.jbase := rfl
@[simp] theorem wr_jbase (s : State) (r : Reg) (v : Word) : (wr s r v).jbase = s.jbase := by unfold wr; split <;> rfl
@[simp] theorem modT_jsize (s : State) (g : Thread → Thread) : (modT s g).jsize = s.jsize := rfl
@[simp] theorem modA_jsize (s : State) (g : Arch → Arch) : (modA s g).jsize = s.jsize := rfl
@[simp] theorem setPc_jsize (s : State) (p : Nat) : (setPc s p).jsize = s.jsize := rfl
@[simp] theorem countOne_jsize (s : State) : (countOne s).jsize = s.jsize := rfl
@[simp] theorem goTo_jsize (s : State) (p : Nat) : (goTo s p).jsize = s.jsize := rfl
@[simp] theorem complete_jsize (s : State) : (complete s).jsize = s.jsize := rfl
@[simp] theorem wr_jsize (s : State) (r : Reg) (v : Word) : (wr s r v).jsize = s.jsize := by unfold wr; split <;> rfl
@[simp] theorem modT_saves (s : State) (g : Thread → Thread) : (modT s g).saves = s.saves := rfl
@[simp] theorem modA_saves (s : State) (g : Arch → Arch) : (modA s g).saves = s.saves := rfl
@[simp] theorem setPc_saves (s : State) (p : Nat) : (setPc s p).saves = s.saves := rfl
@[simp] theorem countOne_saves (s : State) : (countOne s).saves = s.saves := rfl
@[simp] theorem goTo_saves (s : State) (p : Nat) : (goTo s p).saves = s.saves := rfl
@[simp] theorem complete_saves (s : State) : (complete s).saves = s.saves := rfl
@[simp] theorem wr_saves (s : State) (r : Reg) (v : Word) : (wr s r v).saves = s.saves := by unfold wr; split <;> rfl
@[simp] theorem modT_agenda (s : State) (g : Thread → Thread) : (modT s g).agenda = s.agenda := rfl
@[simp] theorem modA_agenda (s : State) (g : Arch → Arch) : (modA s g).agenda = s.agenda := rfl
@[simp] theorem setPc_agenda (s : State) (p : Nat) : (setPc s p).agenda = s.agenda := rfl
@[simp] theorem countOne_agenda (s : State) : (countOne s).agenda = s.agenda := rfl
@[simp] theorem goTo_agenda (s : State) (p : Nat) : (goTo s p).agenda = s.agenda := rfl
@[simp] theorem complete_agenda (s : State) : (complete s).agenda = s.agenda := rfl
@[simp] theorem wr_agenda (s : State) (r : Reg) (v : Word) : (wr s r v).agenda = s.agenda := by unfold wr; split <;> rfl
@[simp] theorem modT_free (s : State) (g : Thread → Thread) : (modT s g).free = s.free := rfl
@[simp] theorem modA_free (s : State) (g : Arch → Arch) : (modA s g).free = s.free := rfl
@[simp] theorem setPc_free (s : State) (p : Nat) : (setPc s p).free = s.free := rfl
@[simp] theorem countOne_free (s : State) : (countOne s).free = s.free := rfl
@[simp] theorem goTo_free (s : State) (p : Nat) : (goTo s p).free = s.free := rfl
@[simp] theorem complete_free (s : State) : (complete s).free = s.free := rfl
@[simp] theorem wr_free (s : State) (r : Reg) (v : Word) : (wr s r v).free = s.free := by unfold wr; split <;> rfl
@[simp] theorem modT_t (s : State) (g : Thread → Thread) : (modT s g).t = g s.t := rfl
@[simp] theorem modA_t (s : State) (g : Arch → Arch) : (modA s g).t = { s.t with a := g s.t.a } := rfl
@[simp] theorem wr_t_ckpt (s : State) (r : Reg) (v : Word) : (wr s r v).t.ckpt = s.t.ckpt := by unfold wr; split <;> rfl
@[simp] theorem complete_t_ckpt (s : State) : (complete s).t.ckpt = s.t.ckpt := rfl
@[simp] theorem goTo_t_ckpt (s : State) (p : Nat) : (goTo s p).t.ckpt = s.t.ckpt := rfl
@[simp] theorem setPc_t_ckpt (s : State) (p : Nat) : (setPc s p).t.ckpt = s.t.ckpt := rfl
@[simp] theorem wr_t_ckptOpen (s : State) (r : Reg) (v : Word) : (wr s r v).t.ckptOpen = s.t.ckptOpen := by unfold wr; split <;> rfl
@[simp] theorem complete_t_ckptOpen (s : State) : (complete s).t.ckptOpen = s.t.ckptOpen := rfl
@[simp] theorem goTo_t_ckptOpen (s : State) (p : Nat) : (goTo s p).t.ckptOpen = s.t.ckptOpen := rfl
@[simp] theorem setPc_t_ckptOpen (s : State) (p : Nat) : (setPc s p).t.ckptOpen = s.t.ckptOpen := rfl
@[simp] theorem wr_t_run (s : State) (r : Reg) (v : Word) : (wr s r v).t.run = s.t.run := by unfold wr; split <;> rfl
@[simp] theorem complete_t_run (s : State) : (complete s).t.run = s.t.run := rfl
@[simp] theorem goTo_t_run (s : State) (p : Nat) : (goTo s p).t.run = s.t.run := rfl
@[simp] theorem setPc_t_run (s : State) (p : Nat) : (setPc s p).t.run = s.t.run := rfl
@[simp] theorem wr_t_lvl (s : State) (r : Reg) (v : Word) : (wr s r v).t.lvl = s.t.lvl := by unfold wr; split <;> rfl
@[simp] theorem complete_t_lvl (s : State) : (complete s).t.lvl = s.t.lvl := rfl
@[simp] theorem goTo_t_lvl (s : State) (p : Nat) : (goTo s p).t.lvl = s.t.lvl := rfl
@[simp] theorem setPc_t_lvl (s : State) (p : Nat) : (setPc s p).t.lvl = s.t.lvl := rfl
@[simp] theorem wr_t_stall (s : State) (r : Reg) (v : Word) : (wr s r v).t.stall = s.t.stall := by unfold wr; split <;> rfl
@[simp] theorem complete_t_stall (s : State) : (complete s).t.stall = s.t.stall := rfl
@[simp] theorem goTo_t_stall (s : State) (p : Nat) : (goTo s p).t.stall = s.t.stall := rfl
@[simp] theorem setPc_t_stall (s : State) (p : Nat) : (setPc s p).t.stall = s.t.stall := rfl
@[simp] theorem wr_t_pass (s : State) (r : Reg) (v : Word) : (wr s r v).t.pass = s.t.pass := by unfold wr; split <;> rfl
@[simp] theorem complete_t_pass (s : State) : (complete s).t.pass = s.t.pass := rfl
@[simp] theorem goTo_t_pass (s : State) (p : Nat) : (goTo s p).t.pass = s.t.pass := rfl
@[simp] theorem setPc_t_pass (s : State) (p : Nat) : (setPc s p).t.pass = s.t.pass := rfl
@[simp] theorem wr_t_chunk (s : State) (r : Reg) (v : Word) : (wr s r v).t.chunk = s.t.chunk := by unfold wr; split <;> rfl
@[simp] theorem setPc_t_chunk (s : State) (p : Nat) : (setPc s p).t.chunk = s.t.chunk := rfl
@[simp] theorem wr_t_closed (s : State) (r : Reg) (v : Word) : (wr s r v).t.closed = s.t.closed := by unfold wr; split <;> rfl
@[simp] theorem complete_t_closed (s : State) : (complete s).t.closed = s.t.closed := rfl
@[simp] theorem goTo_t_closed (s : State) (p : Nat) : (goTo s p).t.closed = s.t.closed := rfl
@[simp] theorem setPc_t_closed (s : State) (p : Nat) : (setPc s p).t.closed = s.t.closed := rfl
@[simp] theorem wr_t_sealed (s : State) (r : Reg) (v : Word) : (wr s r v).t.sealed = s.t.sealed := by unfold wr; split <;> rfl
@[simp] theorem complete_t_sealed (s : State) : (complete s).t.sealed = s.t.sealed := rfl
@[simp] theorem goTo_t_sealed (s : State) (p : Nat) : (goTo s p).t.sealed = s.t.sealed := rfl
@[simp] theorem setPc_t_sealed (s : State) (p : Nat) : (setPc s p).t.sealed = s.t.sealed := rfl
@[simp] theorem wr_t_passCkpt (s : State) (r : Reg) (v : Word) : (wr s r v).t.passCkpt = s.t.passCkpt := by unfold wr; split <;> rfl
@[simp] theorem complete_t_passCkpt (s : State) : (complete s).t.passCkpt = s.t.passCkpt := rfl
@[simp] theorem goTo_t_passCkpt (s : State) (p : Nat) : (goTo s p).t.passCkpt = s.t.passCkpt := rfl
@[simp] theorem setPc_t_passCkpt (s : State) (p : Nat) : (setPc s p).t.passCkpt = s.t.passCkpt := rfl
@[simp] theorem wr_t_squashes (s : State) (r : Reg) (v : Word) : (wr s r v).t.squashes = s.t.squashes := by unfold wr; split <;> rfl
@[simp] theorem complete_t_squashes (s : State) : (complete s).t.squashes = s.t.squashes := rfl
@[simp] theorem goTo_t_squashes (s : State) (p : Nat) : (goTo s p).t.squashes = s.t.squashes := rfl
@[simp] theorem setPc_t_squashes (s : State) (p : Nat) : (setPc s p).t.squashes = s.t.squashes := rfl
@[simp] theorem wr_t_streak (s : State) (r : Reg) (v : Word) : (wr s r v).t.streak = s.t.streak := by unfold wr; split <;> rfl
@[simp] theorem complete_t_streak (s : State) : (complete s).t.streak = s.t.streak := rfl
@[simp] theorem goTo_t_streak (s : State) (p : Nat) : (goTo s p).t.streak = s.t.streak := rfl
@[simp] theorem setPc_t_streak (s : State) (p : Nat) : (setPc s p).t.streak = s.t.streak := rfl
@[simp] theorem wr_t_reserving (s : State) (r : Reg) (v : Word) : (wr s r v).t.reserving = s.t.reserving := by unfold wr; split <;> rfl
@[simp] theorem complete_t_reserving (s : State) : (complete s).t.reserving = s.t.reserving := rfl
@[simp] theorem goTo_t_reserving (s : State) (p : Nat) : (goTo s p).t.reserving = s.t.reserving := rfl
@[simp] theorem setPc_t_reserving (s : State) (p : Nat) : (setPc s p).t.reserving = s.t.reserving := rfl
@[simp] theorem wr_t_draw (s : State) (r : Reg) (v : Word) : (wr s r v).t.draw = s.t.draw := by unfold wr; split <;> rfl
@[simp] theorem complete_t_draw (s : State) : (complete s).t.draw = s.t.draw := rfl
@[simp] theorem goTo_t_draw (s : State) (p : Nat) : (goTo s p).t.draw = s.t.draw := rfl
@[simp] theorem setPc_t_draw (s : State) (p : Nat) : (setPc s p).t.draw = s.t.draw := rfl
@[simp] theorem wr_t_parkLeft (s : State) (r : Reg) (v : Word) : (wr s r v).t.parkLeft = s.t.parkLeft := by unfold wr; split <;> rfl
@[simp] theorem complete_t_parkLeft (s : State) : (complete s).t.parkLeft = s.t.parkLeft := rfl
@[simp] theorem goTo_t_parkLeft (s : State) (p : Nat) : (goTo s p).t.parkLeft = s.t.parkLeft := rfl
@[simp] theorem setPc_t_parkLeft (s : State) (p : Nat) : (setPc s p).t.parkLeft = s.t.parkLeft := rfl
@[simp] theorem wr_t_napDone (s : State) (r : Reg) (v : Word) : (wr s r v).t.napDone = s.t.napDone := by unfold wr; split <;> rfl
@[simp] theorem complete_t_napDone (s : State) : (complete s).t.napDone = s.t.napDone := rfl
@[simp] theorem goTo_t_napDone (s : State) (p : Nat) : (goTo s p).t.napDone = s.t.napDone := rfl
@[simp] theorem setPc_t_napDone (s : State) (p : Nat) : (setPc s p).t.napDone = s.t.napDone := rfl
@[simp] theorem wr_t_parkReg (s : State) (r : Reg) (v : Word) : (wr s r v).t.parkReg = s.t.parkReg := by unfold wr; split <;> rfl
@[simp] theorem complete_t_parkReg (s : State) : (complete s).t.parkReg = s.t.parkReg := rfl
@[simp] theorem goTo_t_parkReg (s : State) (p : Nat) : (goTo s p).t.parkReg = s.t.parkReg := rfl
@[simp] theorem setPc_t_parkReg (s : State) (p : Nat) : (setPc s p).t.parkReg = s.t.parkReg := rfl
@[simp] theorem wr_t_preS (s : State) (r : Reg) (v : Word) : (wr s r v).t.preS = s.t.preS := by unfold wr; split <;> rfl
@[simp] theorem complete_t_preS (s : State) : (complete s).t.preS = s.t.preS := rfl
@[simp] theorem goTo_t_preS (s : State) (p : Nat) : (goTo s p).t.preS = s.t.preS := rfl
@[simp] theorem setPc_t_preS (s : State) (p : Nat) : (setPc s p).t.preS = s.t.preS := rfl
@[simp] theorem wr_t_preH (s : State) (r : Reg) (v : Word) : (wr s r v).t.preH = s.t.preH := by unfold wr; split <;> rfl
@[simp] theorem complete_t_preH (s : State) : (complete s).t.preH = s.t.preH := rfl
@[simp] theorem goTo_t_preH (s : State) (p : Nat) : (goTo s p).t.preH = s.t.preH := rfl
@[simp] theorem setPc_t_preH (s : State) (p : Nat) : (setPc s p).t.preH = s.t.preH := rfl
@[simp] theorem wr_t_deferred (s : State) (r : Reg) (v : Word) : (wr s r v).t.deferred = s.t.deferred := by unfold wr; split <;> rfl
@[simp] theorem complete_t_deferred (s : State) : (complete s).t.deferred = s.t.deferred := rfl
@[simp] theorem goTo_t_deferred (s : State) (p : Nat) : (goTo s p).t.deferred = s.t.deferred := rfl
@[simp] theorem setPc_t_deferred (s : State) (p : Nat) : (setPc s p).t.deferred = s.t.deferred := rfl
@[simp] theorem wr_t_afterIret (s : State) (r : Reg) (v : Word) : (wr s r v).t.afterIret = s.t.afterIret := by unfold wr; split <;> rfl
@[simp] theorem complete_t_afterIret (s : State) : (complete s).t.afterIret = s.t.afterIret := rfl
@[simp] theorem goTo_t_afterIret (s : State) (p : Nat) : (goTo s p).t.afterIret = s.t.afterIret := rfl
@[simp] theorem setPc_t_afterIret (s : State) (p : Nat) : (setPc s p).t.afterIret = s.t.afterIret := rfl
@[simp] theorem wr_t_groups (s : State) (r : Reg) (v : Word) : (wr s r v).t.groups = s.t.groups := by unfold wr; split <;> rfl
@[simp] theorem complete_t_groups (s : State) : (complete s).t.groups = s.t.groups := rfl
@[simp] theorem goTo_t_groups (s : State) (p : Nat) : (goTo s p).t.groups = s.t.groups := rfl
@[simp] theorem setPc_t_groups (s : State) (p : Nat) : (setPc s p).t.groups = s.t.groups := rfl
@[simp] theorem wr_t_grants (s : State) (r : Reg) (v : Word) : (wr s r v).t.grants = s.t.grants := by unfold wr; split <;> rfl
@[simp] theorem complete_t_grants (s : State) : (complete s).t.grants = s.t.grants := rfl
@[simp] theorem goTo_t_grants (s : State) (p : Nat) : (goTo s p).t.grants = s.t.grants := rfl
@[simp] theorem setPc_t_grants (s : State) (p : Nat) : (setPc s p).t.grants = s.t.grants := rfl
@[simp] theorem wr_t_unacked (s : State) (r : Reg) (v : Word) : (wr s r v).t.unacked = s.t.unacked := by unfold wr; split <;> rfl
@[simp] theorem complete_t_unacked (s : State) : (complete s).t.unacked = s.t.unacked := rfl
@[simp] theorem goTo_t_unacked (s : State) (p : Nat) : (goTo s p).t.unacked = s.t.unacked := rfl
@[simp] theorem setPc_t_unacked (s : State) (p : Nat) : (setPc s p).t.unacked = s.t.unacked := rfl
@[simp] theorem wr_t_chkstat (s : State) (r : Reg) (v : Word) : (wr s r v).t.chkstat = s.t.chkstat := by unfold wr; split <;> rfl
@[simp] theorem complete_t_chkstat (s : State) : (complete s).t.chkstat = s.t.chkstat := rfl
@[simp] theorem goTo_t_chkstat (s : State) (p : Nat) : (goTo s p).t.chkstat = s.t.chkstat := rfl
@[simp] theorem setPc_t_chkstat (s : State) (p : Nat) : (setPc s p).t.chkstat = s.t.chkstat := rfl
@[simp] theorem wr_t_lanes (s : State) (r : Reg) (v : Word) : (wr s r v).t.lanes = s.t.lanes := by unfold wr; split <;> rfl
@[simp] theorem complete_t_lanes (s : State) : (complete s).t.lanes = s.t.lanes := rfl
@[simp] theorem goTo_t_lanes (s : State) (p : Nat) : (goTo s p).t.lanes = s.t.lanes := rfl
@[simp] theorem setPc_t_lanes (s : State) (p : Nat) : (setPc s p).t.lanes = s.t.lanes := rfl
@[simp] theorem wr_t_tvec (s : State) (r : Reg) (v : Word) : (wr s r v).t.tvec = s.t.tvec := by unfold wr; split <;> rfl
@[simp] theorem complete_t_tvec (s : State) : (complete s).t.tvec = s.t.tvec := rfl
@[simp] theorem goTo_t_tvec (s : State) (p : Nat) : (goTo s p).t.tvec = s.t.tvec := rfl
@[simp] theorem setPc_t_tvec (s : State) (p : Nat) : (setPc s p).t.tvec = s.t.tvec := rfl
@[simp] theorem wr_t_tstatus (s : State) (r : Reg) (v : Word) : (wr s r v).t.tstatus = s.t.tstatus := by unfold wr; split <;> rfl
@[simp] theorem complete_t_tstatus (s : State) : (complete s).t.tstatus = s.t.tstatus := rfl
@[simp] theorem goTo_t_tstatus (s : State) (p : Nat) : (goTo s p).t.tstatus = s.t.tstatus := rfl
@[simp] theorem setPc_t_tstatus (s : State) (p : Nat) : (setPc s p).t.tstatus = s.t.tstatus := rfl
@[simp] theorem wr_t_trappc (s : State) (r : Reg) (v : Word) : (wr s r v).t.trappc = s.t.trappc := by unfold wr; split <;> rfl
@[simp] theorem complete_t_trappc (s : State) : (complete s).t.trappc = s.t.trappc := rfl
@[simp] theorem goTo_t_trappc (s : State) (p : Nat) : (goTo s p).t.trappc = s.t.trappc := rfl
@[simp] theorem setPc_t_trappc (s : State) (p : Nat) : (setPc s p).t.trappc = s.t.trappc := rfl
@[simp] theorem wr_t_trapcause (s : State) (r : Reg) (v : Word) : (wr s r v).t.trapcause = s.t.trapcause := by unfold wr; split <;> rfl
@[simp] theorem complete_t_trapcause (s : State) : (complete s).t.trapcause = s.t.trapcause := rfl
@[simp] theorem goTo_t_trapcause (s : State) (p : Nat) : (goTo s p).t.trapcause = s.t.trapcause := rfl
@[simp] theorem setPc_t_trapcause (s : State) (p : Nat) : (setPc s p).t.trapcause = s.t.trapcause := rfl
@[simp] theorem wr_t_trapaddr (s : State) (r : Reg) (v : Word) : (wr s r v).t.trapaddr = s.t.trapaddr := by unfold wr; split <;> rfl
@[simp] theorem complete_t_trapaddr (s : State) : (complete s).t.trapaddr = s.t.trapaddr := rfl
@[simp] theorem goTo_t_trapaddr (s : State) (p : Nat) : (goTo s p).t.trapaddr = s.t.trapaddr := rfl
@[simp] theorem setPc_t_trapaddr (s : State) (p : Nat) : (setPc s p).t.trapaddr = s.t.trapaddr := rfl
@[simp] theorem wr_t_trapblame (s : State) (r : Reg) (v : Word) : (wr s r v).t.trapblame = s.t.trapblame := by unfold wr; split <;> rfl
@[simp] theorem complete_t_trapblame (s : State) : (complete s).t.trapblame = s.t.trapblame := rfl
@[simp] theorem goTo_t_trapblame (s : State) (p : Nat) : (goTo s p).t.trapblame = s.t.trapblame := rfl
@[simp] theorem setPc_t_trapblame (s : State) (p : Nat) : (setPc s p).t.trapblame = s.t.trapblame := rfl
@[simp] theorem wr_t_trapstream (s : State) (r : Reg) (v : Word) : (wr s r v).t.trapstream = s.t.trapstream := by unfold wr; split <;> rfl
@[simp] theorem complete_t_trapstream (s : State) : (complete s).t.trapstream = s.t.trapstream := rfl
@[simp] theorem goTo_t_trapstream (s : State) (p : Nat) : (goTo s p).t.trapstream = s.t.trapstream := rfl
@[simp] theorem setPc_t_trapstream (s : State) (p : Nat) : (setPc s p).t.trapstream = s.t.trapstream := rfl
@[simp] theorem wr_t_ctxbase (s : State) (r : Reg) (v : Word) : (wr s r v).t.ctxbase = s.t.ctxbase := by unfold wr; split <;> rfl
@[simp] theorem complete_t_ctxbase (s : State) : (complete s).t.ctxbase = s.t.ctxbase := rfl
@[simp] theorem goTo_t_ctxbase (s : State) (p : Nat) : (goTo s p).t.ctxbase = s.t.ctxbase := rfl
@[simp] theorem setPc_t_ctxbase (s : State) (p : Nat) : (setPc s p).t.ctxbase = s.t.ctxbase := rfl
@[simp] theorem wr_t_dumpbase (s : State) (r : Reg) (v : Word) : (wr s r v).t.dumpbase = s.t.dumpbase := by unfold wr; split <;> rfl
@[simp] theorem complete_t_dumpbase (s : State) : (complete s).t.dumpbase = s.t.dumpbase := rfl
@[simp] theorem goTo_t_dumpbase (s : State) (p : Nat) : (goTo s p).t.dumpbase = s.t.dumpbase := rfl
@[simp] theorem setPc_t_dumpbase (s : State) (p : Nat) : (setPc s p).t.dumpbase = s.t.dumpbase := rfl
@[simp] theorem wr_t_ptbase (s : State) (r : Reg) (v : Word) : (wr s r v).t.ptbase = s.t.ptbase := by unfold wr; split <;> rfl
@[simp] theorem complete_t_ptbase (s : State) : (complete s).t.ptbase = s.t.ptbase := rfl
@[simp] theorem goTo_t_ptbase (s : State) (p : Nat) : (goTo s p).t.ptbase = s.t.ptbase := rfl
@[simp] theorem setPc_t_ptbase (s : State) (p : Nat) : (setPc s p).t.ptbase = s.t.ptbase := rfl
@[simp] theorem wr_t_asid (s : State) (r : Reg) (v : Word) : (wr s r v).t.asid = s.t.asid := by unfold wr; split <;> rfl
@[simp] theorem complete_t_asid (s : State) : (complete s).t.asid = s.t.asid := rfl
@[simp] theorem goTo_t_asid (s : State) (p : Nat) : (goTo s p).t.asid = s.t.asid := rfl
@[simp] theorem setPc_t_asid (s : State) (p : Nat) : (setPc s p).t.asid = s.t.asid := rfl
@[simp] theorem wr_t_hvec (s : State) (r : Reg) (v : Word) : (wr s r v).t.hvec = s.t.hvec := by unfold wr; split <;> rfl
@[simp] theorem complete_t_hvec (s : State) : (complete s).t.hvec = s.t.hvec := rfl
@[simp] theorem goTo_t_hvec (s : State) (p : Nat) : (goTo s p).t.hvec = s.t.hvec := rfl
@[simp] theorem setPc_t_hvec (s : State) (p : Nat) : (setPc s p).t.hvec = s.t.hvec := rfl
@[simp] theorem wr_t_hstatus (s : State) (r : Reg) (v : Word) : (wr s r v).t.hstatus = s.t.hstatus := by unfold wr; split <;> rfl
@[simp] theorem complete_t_hstatus (s : State) : (complete s).t.hstatus = s.t.hstatus := rfl
@[simp] theorem goTo_t_hstatus (s : State) (p : Nat) : (goTo s p).t.hstatus = s.t.hstatus := rfl
@[simp] theorem setPc_t_hstatus (s : State) (p : Nat) : (setPc s p).t.hstatus = s.t.hstatus := rfl
@[simp] theorem wr_t_htrappc (s : State) (r : Reg) (v : Word) : (wr s r v).t.htrappc = s.t.htrappc := by unfold wr; split <;> rfl
@[simp] theorem complete_t_htrappc (s : State) : (complete s).t.htrappc = s.t.htrappc := rfl
@[simp] theorem goTo_t_htrappc (s : State) (p : Nat) : (goTo s p).t.htrappc = s.t.htrappc := rfl
@[simp] theorem setPc_t_htrappc (s : State) (p : Nat) : (setPc s p).t.htrappc = s.t.htrappc := rfl
@[simp] theorem wr_t_htrapcause (s : State) (r : Reg) (v : Word) : (wr s r v).t.htrapcause = s.t.htrapcause := by unfold wr; split <;> rfl
@[simp] theorem complete_t_htrapcause (s : State) : (complete s).t.htrapcause = s.t.htrapcause := rfl
@[simp] theorem goTo_t_htrapcause (s : State) (p : Nat) : (goTo s p).t.htrapcause = s.t.htrapcause := rfl
@[simp] theorem setPc_t_htrapcause (s : State) (p : Nat) : (setPc s p).t.htrapcause = s.t.htrapcause := rfl
@[simp] theorem wr_t_htrapaddr (s : State) (r : Reg) (v : Word) : (wr s r v).t.htrapaddr = s.t.htrapaddr := by unfold wr; split <;> rfl
@[simp] theorem complete_t_htrapaddr (s : State) : (complete s).t.htrapaddr = s.t.htrapaddr := rfl
@[simp] theorem goTo_t_htrapaddr (s : State) (p : Nat) : (goTo s p).t.htrapaddr = s.t.htrapaddr := rfl
@[simp] theorem setPc_t_htrapaddr (s : State) (p : Nat) : (setPc s p).t.htrapaddr = s.t.htrapaddr := rfl
@[simp] theorem wr_t_vfid (s : State) (r : Reg) (v : Word) : (wr s r v).t.vfid = s.t.vfid := by unfold wr; split <;> rfl
@[simp] theorem complete_t_vfid (s : State) : (complete s).t.vfid = s.t.vfid := rfl
@[simp] theorem goTo_t_vfid (s : State) (p : Nat) : (goTo s p).t.vfid = s.t.vfid := rfl
@[simp] theorem setPc_t_vfid (s : State) (p : Nat) : (setPc s p).t.vfid = s.t.vfid := rfl
@[simp] theorem wr_t_keyid (s : State) (r : Reg) (v : Word) : (wr s r v).t.keyid = s.t.keyid := by unfold wr; split <;> rfl
@[simp] theorem complete_t_keyid (s : State) : (complete s).t.keyid = s.t.keyid := rfl
@[simp] theorem goTo_t_keyid (s : State) (p : Nat) : (goTo s p).t.keyid = s.t.keyid := rfl
@[simp] theorem setPc_t_keyid (s : State) (p : Nat) : (setPc s p).t.keyid = s.t.keyid := rfl
@[simp] theorem wr_t_hptbase (s : State) (r : Reg) (v : Word) : (wr s r v).t.hptbase = s.t.hptbase := by unfold wr; split <;> rfl
@[simp] theorem complete_t_hptbase (s : State) : (complete s).t.hptbase = s.t.hptbase := rfl
@[simp] theorem goTo_t_hptbase (s : State) (p : Nat) : (goTo s p).t.hptbase = s.t.hptbase := rfl
@[simp] theorem setPc_t_hptbase (s : State) (p : Nat) : (setPc s p).t.hptbase = s.t.hptbase := rfl
@[simp] theorem wr_t_fotbase (s : State) (r : Reg) (v : Word) : (wr s r v).t.fotbase = s.t.fotbase := by unfold wr; split <;> rfl
@[simp] theorem complete_t_fotbase (s : State) : (complete s).t.fotbase = s.t.fotbase := rfl
@[simp] theorem goTo_t_fotbase (s : State) (p : Nat) : (goTo s p).t.fotbase = s.t.fotbase := rfl
@[simp] theorem setPc_t_fotbase (s : State) (p : Nat) : (setPc s p).t.fotbase = s.t.fotbase := rfl
@[simp] theorem complete_a_x (s : State) : (complete s).t.a.x = s.t.a.x := rfl
@[simp] theorem goTo_a_x (s : State) (p : Nat) : (goTo s p).t.a.x = s.t.a.x := rfl
@[simp] theorem setPc_a_x (s : State) (p : Nat) : (setPc s p).t.a.x = s.t.a.x := rfl
@[simp] theorem wr_a_pc (s : State) (r : Reg) (v : Word) : (wr s r v).t.a.pc = s.t.a.pc := by unfold wr; split <;> rfl
@[simp] theorem wr_a_fctl (s : State) (r : Reg) (v : Word) : (wr s r v).t.a.fctl = s.t.a.fctl := by unfold wr; split <;> rfl
@[simp] theorem complete_a_fctl (s : State) : (complete s).t.a.fctl = s.t.a.fctl := rfl
@[simp] theorem goTo_a_fctl (s : State) (p : Nat) : (goTo s p).t.a.fctl = s.t.a.fctl := rfl
@[simp] theorem setPc_a_fctl (s : State) (p : Nat) : (setPc s p).t.a.fctl = s.t.a.fctl := rfl
@[simp] theorem wr_a_fstat (s : State) (r : Reg) (v : Word) : (wr s r v).t.a.fstat = s.t.a.fstat := by unfold wr; split <;> rfl
@[simp] theorem complete_a_fstat (s : State) : (complete s).t.a.fstat = s.t.a.fstat := rfl
@[simp] theorem goTo_a_fstat (s : State) (p : Nat) : (goTo s p).t.a.fstat = s.t.a.fstat := rfl
@[simp] theorem setPc_a_fstat (s : State) (p : Nat) : (setPc s p).t.a.fstat = s.t.a.fstat := rfl
@[simp] theorem wr_a_fxrm (s : State) (r : Reg) (v : Word) : (wr s r v).t.a.fxrm = s.t.a.fxrm := by unfold wr; split <;> rfl
@[simp] theorem complete_a_fxrm (s : State) : (complete s).t.a.fxrm = s.t.a.fxrm := rfl
@[simp] theorem goTo_a_fxrm (s : State) (p : Nat) : (goTo s p).t.a.fxrm = s.t.a.fxrm := rfl
@[simp] theorem setPc_a_fxrm (s : State) (p : Nat) : (setPc s p).t.a.fxrm = s.t.a.fxrm := rfl
@[simp] theorem wr_a_cmpthr (s : State) (r : Reg) (v : Word) : (wr s r v).t.a.cmpthr = s.t.a.cmpthr := by unfold wr; split <;> rfl
@[simp] theorem complete_a_cmpthr (s : State) : (complete s).t.a.cmpthr = s.t.a.cmpthr := rfl
@[simp] theorem goTo_a_cmpthr (s : State) (p : Nat) : (goTo s p).t.a.cmpthr = s.t.a.cmpthr := rfl
@[simp] theorem setPc_a_cmpthr (s : State) (p : Nat) : (setPc s p).t.a.cmpthr = s.t.a.cmpthr := rfl
@[simp] theorem wr_a_chkLim (s : State) (r : Reg) (v : Word) : (wr s r v).t.a.chkLim = s.t.a.chkLim := by unfold wr; split <;> rfl
@[simp] theorem complete_a_chkLim (s : State) : (complete s).t.a.chkLim = s.t.a.chkLim := rfl
@[simp] theorem goTo_a_chkLim (s : State) (p : Nat) : (goTo s p).t.a.chkLim = s.t.a.chkLim := rfl
@[simp] theorem setPc_a_chkLim (s : State) (p : Nat) : (setPc s p).t.a.chkLim = s.t.a.chkLim := rfl
@[simp] theorem wr_a_chkEff (s : State) (r : Reg) (v : Word) : (wr s r v).t.a.chkEff = s.t.a.chkEff := by unfold wr; split <;> rfl
@[simp] theorem complete_a_chkEff (s : State) : (complete s).t.a.chkEff = s.t.a.chkEff := rfl
@[simp] theorem goTo_a_chkEff (s : State) (p : Nat) : (goTo s p).t.a.chkEff = s.t.a.chkEff := rfl
@[simp] theorem setPc_a_chkEff (s : State) (p : Nat) : (setPc s p).t.a.chkEff = s.t.a.chkEff := rfl
@[simp] theorem wr_a_chkNext (s : State) (r : Reg) (v : Word) : (wr s r v).t.a.chkNext = s.t.a.chkNext := by unfold wr; split <;> rfl
@[simp] theorem complete_a_chkNext (s : State) : (complete s).t.a.chkNext = s.t.a.chkNext := rfl
@[simp] theorem goTo_a_chkNext (s : State) (p : Nat) : (goTo s p).t.a.chkNext = s.t.a.chkNext := rfl
@[simp] theorem setPc_a_chkNext (s : State) (p : Nat) : (setPc s p).t.a.chkNext = s.t.a.chkNext := rfl
@[simp] theorem wr_a_done (s : State) (r : Reg) (v : Word) : (wr s r v).t.a.done = s.t.a.done := by unfold wr; split <;> rfl
@[simp] theorem complete_a_done (s : State) : (complete s).t.a.done = s.t.a.done := rfl
@[simp] theorem goTo_a_done (s : State) (p : Nat) : (goTo s p).t.a.done = s.t.a.done := rfl
@[simp] theorem setPc_a_done (s : State) (p : Nat) : (setPc s p).t.a.done = s.t.a.done := rfl
@[simp] theorem wr_a_efault (s : State) (r : Reg) (v : Word) : (wr s r v).t.a.efault = s.t.a.efault := by unfold wr; split <;> rfl
@[simp] theorem complete_a_efault (s : State) : (complete s).t.a.efault = s.t.a.efault := rfl
@[simp] theorem goTo_a_efault (s : State) (p : Nat) : (goTo s p).t.a.efault = s.t.a.efault := rfl
@[simp] theorem setPc_a_efault (s : State) (p : Nat) : (setPc s p).t.a.efault = s.t.a.efault := rfl
@[simp] theorem wr_a_evs (s : State) (r : Reg) (v : Word) : (wr s r v).t.a.evs = s.t.a.evs := by unfold wr; split <;> rfl
@[simp] theorem complete_a_evs (s : State) : (complete s).t.a.evs = s.t.a.evs := rfl
@[simp] theorem goTo_a_evs (s : State) (p : Nat) : (goTo s p).t.a.evs = s.t.a.evs := rfl
@[simp] theorem setPc_a_evs (s : State) (p : Nat) : (setPc s p).t.a.evs = s.t.a.evs := rfl
@[simp] theorem wr_a_uivec (s : State) (r : Reg) (v : Word) : (wr s r v).t.a.uivec = s.t.a.uivec := by unfold wr; split <;> rfl
@[simp] theorem complete_a_uivec (s : State) : (complete s).t.a.uivec = s.t.a.uivec := rfl
@[simp] theorem goTo_a_uivec (s : State) (p : Nat) : (goTo s p).t.a.uivec = s.t.a.uivec := rfl
@[simp] theorem setPc_a_uivec (s : State) (p : Nat) : (setPc s p).t.a.uivec = s.t.a.uivec := rfl
@[simp] theorem wr_a_uien (s : State) (r : Reg) (v : Word) : (wr s r v).t.a.uien = s.t.a.uien := by unfold wr; split <;> rfl
@[simp] theorem complete_a_uien (s : State) : (complete s).t.a.uien = s.t.a.uien := rfl
@[simp] theorem goTo_a_uien (s : State) (p : Nat) : (goTo s p).t.a.uien = s.t.a.uien := rfl
@[simp] theorem setPc_a_uien (s : State) (p : Nat) : (setPc s p).t.a.uien = s.t.a.uien := rfl
@[simp] theorem wr_a_uiactive (s : State) (r : Reg) (v : Word) : (wr s r v).t.a.uiactive = s.t.a.uiactive := by unfold wr; split <;> rfl
@[simp] theorem complete_a_uiactive (s : State) : (complete s).t.a.uiactive = s.t.a.uiactive := rfl
@[simp] theorem goTo_a_uiactive (s : State) (p : Nat) : (goTo s p).t.a.uiactive = s.t.a.uiactive := rfl
@[simp] theorem setPc_a_uiactive (s : State) (p : Nat) : (setPc s p).t.a.uiactive = s.t.a.uiactive := rfl
@[simp] theorem wr_a_uipc (s : State) (r : Reg) (v : Word) : (wr s r v).t.a.uipc = s.t.a.uipc := by unfold wr; split <;> rfl
@[simp] theorem complete_a_uipc (s : State) : (complete s).t.a.uipc = s.t.a.uipc := rfl
@[simp] theorem goTo_a_uipc (s : State) (p : Nat) : (goTo s p).t.a.uipc = s.t.a.uipc := rfl
@[simp] theorem setPc_a_uipc (s : State) (p : Nat) : (setPc s p).t.a.uipc = s.t.a.uipc := rfl
@[simp] theorem wr_a_shadow (s : State) (r : Reg) (v : Word) : (wr s r v).t.a.shadow = s.t.a.shadow := by unfold wr; split <;> rfl
@[simp] theorem complete_a_shadow (s : State) : (complete s).t.a.shadow = s.t.a.shadow := rfl
@[simp] theorem goTo_a_shadow (s : State) (p : Nat) : (goTo s p).t.a.shadow = s.t.a.shadow := rfl
@[simp] theorem setPc_a_shadow (s : State) (p : Nat) : (setPc s p).t.a.shadow = s.t.a.shadow := rfl
@[simp] theorem wr_a_vlLen (s : State) (r : Reg) (v : Word) : (wr s r v).t.a.vlLen = s.t.a.vlLen := by unfold wr; split <;> rfl
@[simp] theorem complete_a_vlLen (s : State) : (complete s).t.a.vlLen = s.t.a.vlLen := rfl
@[simp] theorem goTo_a_vlLen (s : State) (p : Nat) : (goTo s p).t.a.vlLen = s.t.a.vlLen := rfl
@[simp] theorem setPc_a_vlLen (s : State) (p : Nat) : (setPc s p).t.a.vlLen = s.t.a.vlLen := rfl
@[simp] theorem wr_a_vlGrant (s : State) (r : Reg) (v : Word) : (wr s r v).t.a.vlGrant = s.t.a.vlGrant := by unfold wr; split <;> rfl
@[simp] theorem complete_a_vlGrant (s : State) : (complete s).t.a.vlGrant = s.t.a.vlGrant := rfl
@[simp] theorem goTo_a_vlGrant (s : State) (p : Nat) : (goTo s p).t.a.vlGrant = s.t.a.vlGrant := rfl
@[simp] theorem setPc_a_vlGrant (s : State) (p : Nat) : (setPc s p).t.a.vlGrant = s.t.a.vlGrant := rfl
@[simp] theorem wr_a_vrs (s : State) (r : Reg) (v : Word) : (wr s r v).t.a.vrs = s.t.a.vrs := by unfold wr; split <;> rfl
@[simp] theorem complete_a_vrs (s : State) : (complete s).t.a.vrs = s.t.a.vrs := rfl
@[simp] theorem goTo_a_vrs (s : State) (p : Nat) : (goTo s p).t.a.vrs = s.t.a.vrs := rfl
@[simp] theorem setPc_a_vrs (s : State) (p : Nat) : (setPc s p).t.a.vrs = s.t.a.vrs := rfl
@[simp] theorem wr_a_capBase (s : State) (r : Reg) (v : Word) : (wr s r v).t.a.capBase = s.t.a.capBase := by unfold wr; split <;> rfl
@[simp] theorem complete_a_capBase (s : State) : (complete s).t.a.capBase = s.t.a.capBase := rfl
@[simp] theorem goTo_a_capBase (s : State) (p : Nat) : (goTo s p).t.a.capBase = s.t.a.capBase := rfl
@[simp] theorem setPc_a_capBase (s : State) (p : Nat) : (setPc s p).t.a.capBase = s.t.a.capBase := rfl
@[simp] theorem wr_a_capSize (s : State) (r : Reg) (v : Word) : (wr s r v).t.a.capSize = s.t.a.capSize := by unfold wr; split <;> rfl
@[simp] theorem complete_a_capSize (s : State) : (complete s).t.a.capSize = s.t.a.capSize := rfl
@[simp] theorem goTo_a_capSize (s : State) (p : Nat) : (goTo s p).t.a.capSize = s.t.a.capSize := rfl
@[simp] theorem setPc_a_capSize (s : State) (p : Nat) : (setPc s p).t.a.capSize = s.t.a.capSize := rfl
@[simp] theorem wr_a_v (s : State) (r : Reg) (v : Word) : (wr s r v).t.a.v = s.t.a.v := by unfold wr; split <;> rfl
@[simp] theorem complete_a_v (s : State) : (complete s).t.a.v = s.t.a.v := rfl
@[simp] theorem goTo_a_v (s : State) (p : Nat) : (goTo s p).t.a.v = s.t.a.v := rfl
@[simp] theorem setPc_a_v (s : State) (p : Nat) : (setPc s p).t.a.v = s.t.a.v := rfl
@[simp] theorem wr_a_m (s : State) (r : Reg) (v : Word) : (wr s r v).t.a.m = s.t.a.m := by unfold wr; split <;> rfl
@[simp] theorem complete_a_m (s : State) : (complete s).t.a.m = s.t.a.m := rfl
@[simp] theorem goTo_a_m (s : State) (p : Nat) : (goTo s p).t.a.m = s.t.a.m := rfl
@[simp] theorem setPc_a_m (s : State) (p : Nat) : (setPc s p).t.a.m = s.t.a.m := rfl
@[simp] theorem wr_a_q (s : State) (r : Reg) (v : Word) : (wr s r v).t.a.q = s.t.a.q := by unfold wr; split <;> rfl
@[simp] theorem complete_a_q (s : State) : (complete s).t.a.q = s.t.a.q := rfl
@[simp] theorem goTo_a_q (s : State) (p : Nat) : (goTo s p).t.a.q = s.t.a.q := rfl
@[simp] theorem setPc_a_q (s : State) (p : Nat) : (setPc s p).t.a.q = s.t.a.q := rfl
@[simp] theorem wr_a_nodes (s : State) (r : Reg) (v : Word) : (wr s r v).t.a.nodes = s.t.a.nodes := by unfold wr; split <;> rfl
@[simp] theorem complete_a_nodes (s : State) : (complete s).t.a.nodes = s.t.a.nodes := rfl
@[simp] theorem goTo_a_nodes (s : State) (p : Nat) : (goTo s p).t.a.nodes = s.t.a.nodes := rfl
@[simp] theorem setPc_a_nodes (s : State) (p : Nat) : (setPc s p).t.a.nodes = s.t.a.nodes := rfl
@[simp] theorem wr_a_leaves (s : State) (r : Reg) (v : Word) : (wr s r v).t.a.leaves = s.t.a.leaves := by unfold wr; split <;> rfl
@[simp] theorem complete_a_leaves (s : State) : (complete s).t.a.leaves = s.t.a.leaves := rfl
@[simp] theorem goTo_a_leaves (s : State) (p : Nat) : (goTo s p).t.a.leaves = s.t.a.leaves := rfl
@[simp] theorem setPc_a_leaves (s : State) (p : Nat) : (setPc s p).t.a.leaves = s.t.a.leaves := rfl
@[simp] theorem wr_a_nextId (s : State) (r : Reg) (v : Word) : (wr s r v).t.a.nextId = s.t.a.nextId := by unfold wr; split <;> rfl
@[simp] theorem complete_a_nextId (s : State) : (complete s).t.a.nextId = s.t.a.nextId := rfl
@[simp] theorem goTo_a_nextId (s : State) (p : Nat) : (goTo s p).t.a.nextId = s.t.a.nextId := rfl
@[simp] theorem setPc_a_nextId (s : State) (p : Nat) : (setPc s p).t.a.nextId = s.t.a.nextId := rfl
@[simp] theorem wr_a_token (s : State) (r : Reg) (v : Word) : (wr s r v).t.a.token = s.t.a.token := by unfold wr; split <;> rfl
@[simp] theorem complete_a_token (s : State) : (complete s).t.a.token = s.t.a.token := rfl
@[simp] theorem goTo_a_token (s : State) (p : Nat) : (goTo s p).t.a.token = s.t.a.token := rfl
@[simp] theorem setPc_a_token (s : State) (p : Nat) : (setPc s p).t.a.token = s.t.a.token := rfl
@[simp] theorem wr_a_sc (s : State) (r : Reg) (v : Word) : (wr s r v).t.a.sc = s.t.a.sc := by unfold wr; split <;> rfl
@[simp] theorem complete_a_sc (s : State) : (complete s).t.a.sc = s.t.a.sc := rfl
@[simp] theorem goTo_a_sc (s : State) (p : Nat) : (goTo s p).t.a.sc = s.t.a.sc := rfl
@[simp] theorem setPc_a_sc (s : State) (p : Nat) : (setPc s p).t.a.sc = s.t.a.sc := rfl
@[simp] theorem wr_a_ste (s : State) (r : Reg) (v : Word) : (wr s r v).t.a.ste = s.t.a.ste := by unfold wr; split <;> rfl
@[simp] theorem complete_a_ste (s : State) : (complete s).t.a.ste = s.t.a.ste := rfl
@[simp] theorem goTo_a_ste (s : State) (p : Nat) : (goTo s p).t.a.ste = s.t.a.ste := rfl
@[simp] theorem setPc_a_ste (s : State) (p : Nat) : (setPc s p).t.a.ste = s.t.a.ste := rfl
@[simp] theorem wr_a_bases (s : State) (r : Reg) (v : Word) : (wr s r v).t.a.bases = s.t.a.bases := by unfold wr; split <;> rfl
@[simp] theorem complete_a_bases (s : State) : (complete s).t.a.bases = s.t.a.bases := rfl
@[simp] theorem goTo_a_bases (s : State) (p : Nat) : (goTo s p).t.a.bases = s.t.a.bases := rfl
@[simp] theorem setPc_a_bases (s : State) (p : Nat) : (setPc s p).t.a.bases = s.t.a.bases := rfl
@[simp] theorem wr_a_strip (s : State) (r : Reg) (v : Word) : (wr s r v).t.a.strip = s.t.a.strip := by unfold wr; split <;> rfl
@[simp] theorem complete_a_strip (s : State) : (complete s).t.a.strip = s.t.a.strip := rfl
@[simp] theorem goTo_a_strip (s : State) (p : Nat) : (goTo s p).t.a.strip = s.t.a.strip := rfl
@[simp] theorem setPc_a_strip (s : State) (p : Nat) : (setPc s p).t.a.strip = s.t.a.strip := rfl
@[simp] theorem wr_a_saved (s : State) (r : Reg) (v : Word) : (wr s r v).t.a.saved = s.t.a.saved := by unfold wr; split <;> rfl
@[simp] theorem complete_a_saved (s : State) : (complete s).t.a.saved = s.t.a.saved := rfl
@[simp] theorem goTo_a_saved (s : State) (p : Nat) : (goTo s p).t.a.saved = s.t.a.saved := rfl
@[simp] theorem setPc_a_saved (s : State) (p : Nat) : (setPc s p).t.a.saved = s.t.a.saved := rfl
@[simp] theorem modT_time (s : State) (g : Thread → Thread) : (modT s g).time = s.time := rfl
@[simp] theorem modA_time (s : State) (g : Arch → Arch) : (modA s g).time = s.time := rfl
@[simp] theorem setPc_time (s : State) (p : Nat) : (setPc s p).time = s.time := rfl
@[simp] theorem countOne_time (s : State) : (countOne s).time = s.time := rfl
@[simp] theorem goTo_time (s : State) (p : Nat) : (goTo s p).time = s.time := rfl
@[simp] theorem complete_time (s : State) : (complete s).time = s.time := rfl
@[simp] theorem wr_time (s : State) (r : Reg) (v : Word) : (wr s r v).time = s.time := by unfold wr; split <;> rfl
@[simp] theorem setPc_t_prepared (s : State) (p : Nat) : (setPc s p).t.prepared = s.t.prepared := rfl
@[simp] theorem goTo_t_prepared (s : State) (p : Nat) : (goTo s p).t.prepared = s.t.prepared := rfl
@[simp] theorem complete_t_prepared (s : State) : (complete s).t.prepared = s.t.prepared := rfl
@[simp] theorem wr_t_prepared (s : State) (r : Reg) (v : Word) : (wr s r v).t.prepared = s.t.prepared := by unfold wr; split <;> rfl
@[simp] theorem setPc_t_wanted (s : State) (p : Nat) : (setPc s p).t.wanted = s.t.wanted := rfl
@[simp] theorem goTo_t_wanted (s : State) (p : Nat) : (goTo s p).t.wanted = s.t.wanted := rfl
@[simp] theorem complete_t_wanted (s : State) : (complete s).t.wanted = s.t.wanted := rfl
@[simp] theorem wr_t_wanted (s : State) (r : Reg) (v : Word) : (wr s r v).t.wanted = s.t.wanted := by unfold wr; split <;> rfl
@[simp] theorem setPc_t_passEffort (s : State) (p : Nat) : (setPc s p).t.passEffort = s.t.passEffort := rfl
@[simp] theorem goTo_t_passEffort (s : State) (p : Nat) : (goTo s p).t.passEffort = s.t.passEffort := rfl
@[simp] theorem complete_t_passEffort (s : State) : (complete s).t.passEffort = s.t.passEffort := rfl
@[simp] theorem wr_t_passEffort (s : State) (r : Reg) (v : Word) : (wr s r v).t.passEffort = s.t.passEffort := by unfold wr; split <;> rfl
@[simp] theorem setPc_t_drawOld (s : State) (p : Nat) : (setPc s p).t.drawOld = s.t.drawOld := rfl
@[simp] theorem goTo_t_drawOld (s : State) (p : Nat) : (goTo s p).t.drawOld = s.t.drawOld := rfl
@[simp] theorem complete_t_drawOld (s : State) : (complete s).t.drawOld = s.t.drawOld := rfl
@[simp] theorem wr_t_drawOld (s : State) (r : Reg) (v : Word) : (wr s r v).t.drawOld = s.t.drawOld := by unfold wr; split <;> rfl
@[simp] theorem setPc_t_parkKept (s : State) (p : Nat) : (setPc s p).t.parkKept = s.t.parkKept := rfl
@[simp] theorem goTo_t_parkKept (s : State) (p : Nat) : (goTo s p).t.parkKept = s.t.parkKept := rfl
@[simp] theorem complete_t_parkKept (s : State) : (complete s).t.parkKept = s.t.parkKept := rfl
@[simp] theorem wr_t_parkKept (s : State) (r : Reg) (v : Word) : (wr s r v).t.parkKept = s.t.parkKept := by unfold wr; split <;> rfl
@[simp] theorem setPc_t_sent (s : State) (p : Nat) : (setPc s p).t.sent = s.t.sent := rfl
@[simp] theorem goTo_t_sent (s : State) (p : Nat) : (goTo s p).t.sent = s.t.sent := rfl
@[simp] theorem complete_t_sent (s : State) : (complete s).t.sent = s.t.sent := rfl
@[simp] theorem wr_t_sent (s : State) (r : Reg) (v : Word) : (wr s r v).t.sent = s.t.sent := by unfold wr; split <;> rfl
@[simp] theorem setPc_a_inner (s : State) (p : Nat) : (setPc s p).t.a.inner = s.t.a.inner := rfl
@[simp] theorem goTo_a_inner (s : State) (p : Nat) : (goTo s p).t.a.inner = s.t.a.inner := rfl
@[simp] theorem complete_a_inner (s : State) : (complete s).t.a.inner = s.t.a.inner := rfl
@[simp] theorem wr_a_inner (s : State) (r : Reg) (v : Word) : (wr s r v).t.a.inner = s.t.a.inner := by unfold wr; split <;> rfl
@[simp] theorem setPc_a_freeing (s : State) (p : Nat) : (setPc s p).t.a.freeing = s.t.a.freeing := rfl
@[simp] theorem goTo_a_freeing (s : State) (p : Nat) : (goTo s p).t.a.freeing = s.t.a.freeing := rfl
@[simp] theorem complete_a_freeing (s : State) : (complete s).t.a.freeing = s.t.a.freeing := rfl
@[simp] theorem wr_a_freeing (s : State) (r : Reg) (v : Word) : (wr s r v).t.a.freeing = s.t.a.freeing := by unfold wr; split <;> rfl
@[simp] theorem modT_marked (s : State) (g : Thread → Thread) : (modT s g).marked = s.marked := rfl
@[simp] theorem modA_marked (s : State) (g : Arch → Arch) : (modA s g).marked = s.marked := rfl
@[simp] theorem setPc_marked (s : State) (p : Nat) : (setPc s p).marked = s.marked := rfl
@[simp] theorem countOne_marked (s : State) : (countOne s).marked = s.marked := rfl
@[simp] theorem goTo_marked (s : State) (p : Nat) : (goTo s p).marked = s.marked := rfl
@[simp] theorem complete_marked (s : State) : (complete s).marked = s.marked := rfl
@[simp] theorem wr_marked (s : State) (r : Reg) (v : Word) : (wr s r v).marked = s.marked := by unfold wr; split <;> rfl
@[simp] theorem modT_ports (s : State) (g : Thread → Thread) : (modT s g).ports = s.ports := rfl
@[simp] theorem modA_ports (s : State) (g : Arch → Arch) : (modA s g).ports = s.ports := rfl
@[simp] theorem setPc_ports (s : State) (p : Nat) : (setPc s p).ports = s.ports := rfl
@[simp] theorem countOne_ports (s : State) : (countOne s).ports = s.ports := rfl
@[simp] theorem goTo_ports (s : State) (p : Nat) : (goTo s p).ports = s.ports := rfl
@[simp] theorem complete_ports (s : State) : (complete s).ports = s.ports := rfl
@[simp] theorem wr_ports (s : State) (r : Reg) (v : Word) : (wr s r v).ports = s.ports := by unfold wr; split <;> rfl
@[simp] theorem modT_fresh (s : State) (g : Thread → Thread) : (modT s g).fresh = s.fresh := rfl
@[simp] theorem modA_fresh (s : State) (g : Arch → Arch) : (modA s g).fresh = s.fresh := rfl
@[simp] theorem setPc_fresh (s : State) (p : Nat) : (setPc s p).fresh = s.fresh := rfl
@[simp] theorem countOne_fresh (s : State) : (countOne s).fresh = s.fresh := rfl
@[simp] theorem goTo_fresh (s : State) (p : Nat) : (goTo s p).fresh = s.fresh := rfl
@[simp] theorem complete_fresh (s : State) : (complete s).fresh = s.fresh := rfl
@[simp] theorem wr_fresh (s : State) (r : Reg) (v : Word) : (wr s r v).fresh = s.fresh := by unfold wr; split <;> rfl
@[simp] theorem modT_chainClosed (s : State) (g : Thread → Thread) : (modT s g).chainClosed = s.chainClosed := rfl
@[simp] theorem modA_chainClosed (s : State) (g : Arch → Arch) : (modA s g).chainClosed = s.chainClosed := rfl
@[simp] theorem setPc_chainClosed (s : State) (p : Nat) : (setPc s p).chainClosed = s.chainClosed := rfl
@[simp] theorem countOne_chainClosed (s : State) : (countOne s).chainClosed = s.chainClosed := rfl
@[simp] theorem goTo_chainClosed (s : State) (p : Nat) : (goTo s p).chainClosed = s.chainClosed := rfl
@[simp] theorem complete_chainClosed (s : State) : (complete s).chainClosed = s.chainClosed := rfl
@[simp] theorem wr_chainClosed (s : State) (r : Reg) (v : Word) : (wr s r v).chainClosed = s.chainClosed := by unfold wr; split <;> rfl
@[simp] theorem modT_resets (s : State) (g : Thread → Thread) : (modT s g).resets = s.resets := rfl
@[simp] theorem modA_resets (s : State) (g : Arch → Arch) : (modA s g).resets = s.resets := rfl
@[simp] theorem setPc_resets (s : State) (p : Nat) : (setPc s p).resets = s.resets := rfl
@[simp] theorem countOne_resets (s : State) : (countOne s).resets = s.resets := rfl
@[simp] theorem goTo_resets (s : State) (p : Nat) : (goTo s p).resets = s.resets := rfl
@[simp] theorem complete_resets (s : State) : (complete s).resets = s.resets := rfl
@[simp] theorem wr_resets (s : State) (r : Reg) (v : Word) : (wr s r v).resets = s.resets := by unfold wr; split <;> rfl
@[simp] theorem modT_rails (s : State) (g : Thread → Thread) : (modT s g).rails = s.rails := rfl
@[simp] theorem modA_rails (s : State) (g : Arch → Arch) : (modA s g).rails = s.rails := rfl
@[simp] theorem setPc_rails (s : State) (p : Nat) : (setPc s p).rails = s.rails := rfl
@[simp] theorem countOne_rails (s : State) : (countOne s).rails = s.rails := rfl
@[simp] theorem goTo_rails (s : State) (p : Nat) : (goTo s p).rails = s.rails := rfl
@[simp] theorem complete_rails (s : State) : (complete s).rails = s.rails := rfl
@[simp] theorem wr_rails (s : State) (r : Reg) (v : Word) : (wr s r v).rails = s.rails := by unfold wr; split <;> rfl
@[simp] theorem modT_power (s : State) (g : Thread → Thread) : (modT s g).power = s.power := rfl
@[simp] theorem modA_power (s : State) (g : Arch → Arch) : (modA s g).power = s.power := rfl
@[simp] theorem setPc_power (s : State) (p : Nat) : (setPc s p).power = s.power := rfl
@[simp] theorem countOne_power (s : State) : (countOne s).power = s.power := rfl
@[simp] theorem goTo_power (s : State) (p : Nat) : (goTo s p).power = s.power := rfl
@[simp] theorem complete_power (s : State) : (complete s).power = s.power := rfl
@[simp] theorem wr_power (s : State) (r : Reg) (v : Word) : (wr s r v).power = s.power := by unfold wr; split <;> rfl
@[simp] theorem modT_outOfTurn (s : State) (g : Thread → Thread) : (modT s g).outOfTurn = s.outOfTurn := rfl
@[simp] theorem modA_outOfTurn (s : State) (g : Arch → Arch) : (modA s g).outOfTurn = s.outOfTurn := rfl
@[simp] theorem setPc_outOfTurn (s : State) (p : Nat) : (setPc s p).outOfTurn = s.outOfTurn := rfl
@[simp] theorem countOne_outOfTurn (s : State) : (countOne s).outOfTurn = s.outOfTurn := rfl
@[simp] theorem goTo_outOfTurn (s : State) (p : Nat) : (goTo s p).outOfTurn = s.outOfTurn := rfl
@[simp] theorem complete_outOfTurn (s : State) : (complete s).outOfTurn = s.outOfTurn := rfl
@[simp] theorem wr_outOfTurn (s : State) (r : Reg) (v : Word) : (wr s r v).outOfTurn = s.outOfTurn := by unfold wr; split <;> rfl
@[simp] theorem modT_unreached (s : State) (g : Thread → Thread) : (modT s g).unreached = s.unreached := rfl
@[simp] theorem modA_unreached (s : State) (g : Arch → Arch) : (modA s g).unreached = s.unreached := rfl
@[simp] theorem setPc_unreached (s : State) (p : Nat) : (setPc s p).unreached = s.unreached := rfl
@[simp] theorem countOne_unreached (s : State) : (countOne s).unreached = s.unreached := rfl
@[simp] theorem goTo_unreached (s : State) (p : Nat) : (goTo s p).unreached = s.unreached := rfl
@[simp] theorem complete_unreached (s : State) : (complete s).unreached = s.unreached := rfl
@[simp] theorem wr_unreached (s : State) (r : Reg) (v : Word) : (wr s r v).unreached = s.unreached := by unfold wr; split <;> rfl
@[simp] theorem setPc_t_redo (s : State) (p : Nat) : (setPc s p).t.redo = s.t.redo := rfl
@[simp] theorem goTo_t_redo (s : State) (p : Nat) : (goTo s p).t.redo = s.t.redo := rfl
@[simp] theorem complete_t_redo (s : State) : (complete s).t.redo = s.t.redo := rfl
@[simp] theorem wr_t_redo (s : State) (r : Reg) (v : Word) : (wr s r v).t.redo = s.t.redo := by unfold wr; split <;> rfl
@[simp] theorem setPc_t_begun (s : State) (p : Nat) : (setPc s p).t.begun = s.t.begun := rfl
@[simp] theorem goTo_t_begun (s : State) (p : Nat) : (goTo s p).t.begun = s.t.begun := rfl
@[simp] theorem complete_t_begun (s : State) : (complete s).t.begun = s.t.begun := rfl
@[simp] theorem wr_t_begun (s : State) (r : Reg) (v : Word) : (wr s r v).t.begun = s.t.begun := by unfold wr; split <;> rfl
@[simp] theorem setPc_t_late (s : State) (p : Nat) : (setPc s p).t.late = s.t.late := rfl
@[simp] theorem goTo_t_late (s : State) (p : Nat) : (goTo s p).t.late = s.t.late := rfl
@[simp] theorem complete_t_late (s : State) : (complete s).t.late = s.t.late := rfl
@[simp] theorem wr_t_late (s : State) (r : Reg) (v : Word) : (wr s r v).t.late = s.t.late := by unfold wr; split <;> rfl
@[simp] theorem setPc_t_ctx (s : State) (p : Nat) : (setPc s p).t.ctx = s.t.ctx := rfl
@[simp] theorem goTo_t_ctx (s : State) (p : Nat) : (goTo s p).t.ctx = s.t.ctx := rfl
@[simp] theorem complete_t_ctx (s : State) : (complete s).t.ctx = s.t.ctx := rfl
@[simp] theorem wr_t_ctx (s : State) (r : Reg) (v : Word) : (wr s r v).t.ctx = s.t.ctx := by unfold wr; split <;> rfl
@[simp] theorem complete_pc (s : State) : (complete s).t.a.pc = (s.t.a.pc + 4) % 18446744073709551616 := rfl
@[simp] theorem goTo_pc (s : State) (p : Nat) : (goTo s p).t.a.pc = p % 18446744073709551616 := rfl
@[simp] theorem setPc_pc (s : State) (p : Nat) : (setPc s p).t.a.pc = p % 18446744073709551616 := rfl
@[simp] theorem complete_chunk (s : State) : (complete s).t.chunk = { s.t.chunk with count := s.t.chunk.count + 1 } := rfl

/-- x0 reads zero. -/
@[simp] theorem rd_zero (s : State) : rd s 0 = 0 := rfl

/-- A write to x0 is discarded. -/
@[simp] theorem wr_zero (s : State) (v : Word) : wr s 0 v = s := rfl

/-- A register reads what was written to it. -/
theorem rd_wr_same (s : State) (r : Reg) (v : Word) (h : r ≠ 0) : rd (wr s r v) r = v := by
  unfold rd
  rw [if_neg h]
  unfold wr
  rw [if_neg h]
  simp [Vector.getElem_set_self]

/-- A write leaves the other registers alone. -/
theorem rd_wr_other (s : State) (d r : Reg) (v : Word) (h : r ≠ d) : rd (wr s d v) r = rd s r := by
  have hn : d.toNat ≠ r.toNat := fun e => h (BitVec.eq_of_toNat_eq e.symm)
  unfold rd wr
  split
  · rfl
  · split
    · rfl
    · simp [hn]

@[simp] theorem rd_complete (s : State) (r : Reg) : rd (complete s) r = rd s r := rfl
@[simp] theorem rd_goTo (s : State) (p : Nat) (r : Reg) : rd (goTo s p) r = rd s r := rfl
@[simp] theorem rd_setPc (s : State) (p : Nat) (r : Reg) : rd (setPc s p) r = rd s r := rfl
@[simp] theorem rd_countOne (s : State) (r : Reg) : rd (countOne s) r = rd s r := rfl

end Sys2Proof.Machine
end

