-- ==== Sys2Proof/Laws/Memory.lean ====
section
/-! SUPPORT. Laws/Memory.lean: sparse lists and the canonical form of memory: what a read sees after a write, and that every
operation on memory keeps the form. -/

namespace Sys2Proof.Machine

open Sys2Proof

/-- A read after a put: the value put, else what was there. -/
theorem spGet_spPut {α : Type} (d : α) (l : List (Nat × α)) (k j : Nat) (v : α) :
    spGet d (spPut l k v) j = if j = k then v else spGet d l j := by
  induction l with
  | nil => simp only [spPut, spGet]; split <;> (try split) <;> grind
  | cons e t ih =>
    obtain ⟨a, w⟩ := e
    simp only [spPut]
    split
    · simp only [spGet]; grind
    · split
      · simp only [spGet]; grind
      · simp only [spGet, ih]; grind

/-- A key below every key of a rising list is not listed. -/
theorem spGet_below {α : Type} (d : α) (l : List (Nat × α)) (k : Nat) (h : ∀ e ∈ l, k < e.1) : spGet d l k = d := by
  cases l with
  | nil => rfl
  | cons e t =>
    have := h e (by simp)
    simp only [spGet]; grind

/-- A read after a deletion. -/
theorem spGet_spDel {α : Type} (d : α) (l : List (Nat × α)) (k j : Nat) (h : Rising l) :
    spGet d (spDel l k) j = if j = k then d else spGet d l j := by
  induction l with
  | nil => simp [spDel, spGet]
  | cons e t ih =>
    obtain ⟨a, w⟩ := e
    obtain ⟨h1, h2⟩ := h
    simp only [spDel]
    split
    · rename_i hk
      subst hk
      by_cases hj : j = a
      · subst hj; simp [spGet_below d t _ h1]
      · simp only [spGet, hj, if_false]
        by_cases hl : j < a
        · simp only [hl, if_true]
          rw [if_neg (Ne.symm hj)]
          exact spGet_below d t j fun e he => Nat.lt_trans hl (h1 e he)
        · rw [if_neg (Ne.symm hj), if_neg hl]
    · split
      · simp only [spGet]; grind
      · simp only [spGet, ih h2]; grind

/-- Keys of a put list are old ones or the new one. -/
theorem mem_spPut {α : Type} (l : List (Nat × α)) (k : Nat) (v : α) (e : Nat × α) (h : e ∈ spPut l k v) :
    e = (k, v) ∨ e ∈ l := by
  induction l with
  | nil => simpa [spPut] using h
  | cons x t ih =>
    obtain ⟨a, w⟩ := x
    simp only [spPut] at h
    split at h
    · simp at h ⊢; grind
    · split at h
      · simp at h ⊢; grind
      · simp at h ⊢
        rcases h with h | h
        · exact .inr (.inl h)
        · rcases ih h with h | h
          · exact .inl h
          · exact .inr (.inr h)

/-- Entries of a list after a deletion are old ones. -/
theorem mem_spDel {α : Type} (l : List (Nat × α)) (k : Nat) (e : Nat × α) (h : e ∈ spDel l k) : e ∈ l := by
  induction l with
  | nil => simp [spDel] at h
  | cons x t ih =>
    obtain ⟨a, w⟩ := x
    simp only [spDel] at h
    split at h
    · simp [h]
    · split at h
      · exact h
      · simp at h ⊢
        rcases h with h | h
        · exact .inl h
        · exact .inr (ih h)

/-- A put keeps the order. -/
theorem rising_spPut {α : Type} (l : List (Nat × α)) (k : Nat) (v : α) (h : Rising l) : Rising (spPut l k v) := by
  induction l with
  | nil => simp [spPut, Rising]
  | cons x t ih =>
    obtain ⟨a, w⟩ := x
    obtain ⟨h1, h2⟩ := h
    simp only [spPut]
    split
    · rename_i hk; subst hk; exact ⟨h1, h2⟩
    · split
      · rename_i hk
        refine ⟨?_, h1, h2⟩
        intro e he
        simp only [List.mem_cons] at he
        rcases he with rfl | he
        · exact hk
        · exact Nat.lt_trans hk (h1 e he)
      · refine ⟨?_, ih h2⟩
        intro e he
        rcases mem_spPut t k v e he with rfl | he
        · simp only; omega
        · exact h1 e he

/-- A deletion keeps the order. -/
theorem rising_spDel {α : Type} (l : List (Nat × α)) (k : Nat) (h : Rising l) : Rising (spDel l k) := by
  induction l with
  | nil => simp [spDel, Rising]
  | cons x t ih =>
    obtain ⟨a, w⟩ := x
    obtain ⟨h1, h2⟩ := h
    simp only [spDel]
    split
    · exact h2
    · split
      · exact ⟨h1, h2⟩
      · exact ⟨fun e he => h1 e (mem_spDel t k e he), ih h2⟩

/-- A filter keeps the order. -/
theorem rising_filter {α : Type} (p : Nat × α → Bool) (l : List (Nat × α)) (h : Rising l) : Rising (l.filter p) := by
  induction l with
  | nil => simp [Rising]
  | cons x t ih =>
    obtain ⟨a, w⟩ := x
    obtain ⟨h1, h2⟩ := h
    simp only [List.filter]
    split
    · exact ⟨fun e he => h1 e ((List.mem_filter.1 he).1), ih h2⟩
    · exact ih h2

/-- The canonical form: rising keys and no byte that is zero. -/
theorem wf_iff (m : List Host.Cell) : Memory.wf m = true ↔ Rising m ∧ ∀ e ∈ m, e.2 ≠ 0 := by
  induction m with
  | nil => simp [Memory.wf, Rising]
  | cons x t ih =>
    obtain ⟨a, v⟩ := x
    cases t with
    | nil => simp [Memory.wf, Rising]
    | cons y u =>
      obtain ⟨b, w⟩ := y
      simp only [Memory.wf, Bool.and_eq_true, bne_iff_ne, decide_eq_true_eq]
      rw [ih]
      constructor
      · rintro ⟨⟨hv, hab⟩, ⟨h1, h2⟩, h3⟩
        refine ⟨⟨?_, h1, h2⟩, ?_⟩
        · intro e he
          simp only [List.mem_cons] at he
          rcases he with rfl | he
          · exact hab
          · exact Nat.lt_trans hab (h1 e he)
        · intro e he
          simp only [List.mem_cons] at he
          rcases he with rfl | he
          · exact hv
          · exact h3 e (by simpa using he)
      · rintro ⟨⟨h1, h2⟩, h3⟩
        exact ⟨⟨h3 (a, v) (by simp), h1 (b, w) (by simp)⟩, h2, fun e he => h3 e (by simp at he ⊢; grind)⟩

/-- Writing one byte keeps the form. -/
theorem wf_spSet (m : List Host.Cell) (k : Nat) (v : Byte) (h : Memory.wf m = true) : Memory.wf (spSet 0 m k v) = true := by
  rw [wf_iff] at h ⊢
  obtain ⟨h1, h2⟩ := h
  unfold spSet
  split
  · exact ⟨rising_spDel m k h1, fun e he => h2 e (mem_spDel m k e he)⟩
  · rename_i hv
    refine ⟨rising_spPut m k v h1, fun e he => ?_⟩
    rcases mem_spPut m k v e he with rfl | he
    · exact hv
    · exact h2 e he

/-- A read after the write of one byte. -/
theorem spGet_spSet (m : List Host.Cell) (k j : Nat) (v : Byte) (h : Memory.wf m = true) :
    spGet 0 (spSet 0 m k v) j = if j = k then v else spGet 0 m j := by
  unfold spSet
  split
  · rename_i hv; subst hv; exact spGet_spDel 0 m k j ((wf_iff m).1 h).1
  · exact spGet_spPut 0 m k j v

/-- Writing a run of bytes keeps the form. -/
theorem wf_putBytes (m : List Host.Cell) (l : List (Nat × Byte)) (h : Memory.wf m = true) : Memory.wf (putBytes m l) = true := by
  induction l generalizing m with
  | nil => exact h
  | cons e t ih => exact ih _ (wf_spSet m e.1 e.2 h)

/-- Bringing a line to its present key keeps the form. -/
theorem wf_renewLine (s : State) (k : Nat) (h : Memory.wf s.mem = true) : Memory.wf (renewLine s k).mem = true := by
  unfold renewLine
  split
  · exact h
  · exact wf_putBytes _ _ h

/-- Writing one byte of committed memory keeps the form. -/
theorem wf_pokeByte (s : State) (k : Nat) (b : Byte) (h : Memory.wf s.mem = true) : Memory.wf (pokeByte s k b).mem = true :=
  wf_spSet _ _ _ (wf_renewLine s k h)

/-- Writing bytes of committed memory keeps the form. -/
theorem wf_pokeAll (s : State) (l : List (Nat × Byte)) (h : Memory.wf s.mem = true) : Memory.wf (pokeAll s l).mem = true := by
  induction l generalizing s with
  | nil => exact h
  | cons e t ih => exact ih _ (wf_pokeByte s e.1 e.2 h)

/-- The scrub of a byte range keeps the form. -/
theorem wf_scrub (s : State) (k n : Nat) (h : Memory.wf s.mem = true) : Memory.wf (scrub s k n).mem = true := by
  rw [wf_iff] at h ⊢
  exact ⟨rising_filter _ _ h.1, fun e he => h.2 e ((List.mem_filter.1 he).1)⟩

/-- Memory is in the canonical form after reset. -/
theorem wf_reset : Memory.wf State.reset.mem = true := rfl

end Sys2Proof.Machine
end

