-- ==== Sys2Proof/Laws/Ops.lean ====
section
/-! SUPPORT. Laws/Ops.lean: for each shared operation, what it can do, said once: frames of a register write, the guards of an
instruction, taking a trap and returning from one, scalar accesses, and giving the turn to another thread. -/

namespace Sys2Proof.Laws

open Sys2Proof Sys2Proof.Machine

/-- Erasing parts other than the access part changes no byte that the thread reads. -/
theorem viewByte_erased (ps : List Part) (s : State) (h : ∀ p ∈ ps, p ≠ Part.access) (k : Nat) :
    viewByte (erased ps s) k = viewByte s k := by
  induction ps generalizing s with
  | nil => rfl
  | cons p t ih =>
    have hp := h p (by simp)
    have ht : viewByte (erased t (p.erase s)) k = viewByte (p.erase s) k := ih _ fun q hq => h q (by simp [hq])
    refine ht.trans ?_
    cases p <;> first | rfl | exact absurd rfl hp | (simp only [Part.erase, viewByte, modT, blankCore]; cases s.t.closed <;> rfl)

/-- States that agree but for parts that hold no byte of memory read alike. -/
theorem keeps_of (ps : List Part) (s t : State) (h : ∀ p ∈ ps, p ≠ Part.access) (e : erased ps t = erased ps s) : Keeps ps s t :=
  ⟨e, fun k => by rw [← viewByte_erased ps t h, ← viewByte_erased ps s h, e]⟩

/-- A state keeps itself. -/
theorem keeps_refl (ps : List Part) (s : State) : Keeps ps s s := ⟨rfl, fun _ => rfl⟩

/-- What exec answers, from its equation. -/
theorem answers_of (i : Instr) (s t : State) (P : State → Prop) (h : exec i s = .next t) (p : P t) : Answers i s P := ⟨t, h, p⟩

/-- A register write followed by the next instruction. -/
theorem wroteReg_complete_wr (s : State) (d : Reg) (v : Word) : WroteReg s (complete (wr s d v)) d v := by
  refine ⟨?_, ?_, by simp, ?_, ?_⟩
  · rw [rd_complete]
    split
    · next h => subst h; rfl
    · next h => exact rd_wr_same _ _ _ h
  · intro r h
    rw [rd_complete, rd_wr_other _ _ _ _ h]
  · intro n
    unfold wr
    split <;> rfl
  · refine keeps_of _ _ _ (by decide) ?_
    unfold wr
    split <;> rfl

/-- The next instruction, with nothing else changed. -/
theorem keeps_complete (s : State) : Keeps [.pc, .count] s (complete s) := keeps_of _ _ _ (by decide) rfl

/-- A taken branch leaves the program counter at its target. -/
theorem branchTo_pc (s : State) (p : Nat) : (branchTo s p).t.a.pc = p % 2 ^ 64 := rfl

/-- A trace record changes the core's ring alone. -/
theorem traceRec_cases (s : State) (ty : Nat) (b : Bool) (pc : Nat) (x y : Word) :
    ∃ ring n laps, traceRec s ty b pc x y = { s with c := { s.c with ring := ring, ringNext := n, ringLaps := laps } } := by
  unfold traceRec traceAt
  split
  · exact ⟨_, _, _, rfl⟩
  · split
    · exact ⟨_, _, _, rfl⟩
    · exact ⟨_, _, _, rfl⟩

/-- An instruction of the compute cores on one of them. -/
theorem onCompute_core (s : State) (w : Nat) (f : State → State) (h : onComputeCore s) : onCompute s w f = f s := by
  unfold onComputeCore at h
  simp [onCompute, h]

/-- The same on a steward: the illegal-instruction trap. -/
theorem onCompute_steward (s : State) (w : Nat) (f : State → State) (h : isSteward s.cur = true) : onCompute s w f = illegal s w := by
  simp [onCompute, h]

/-- An instruction at a level that may run it. -/
theorem atLevel_enough (s : State) (low : Level) (w : Nat) (f : State → State) (h : low.code ≤ s.t.lvl.code) :
    atLevel s low w f = f s := by
  simp [atLevel, Nat.not_lt.mpr h]

/-- An instruction below its level. -/
theorem atLevel_below (s : State) (low : Level) (w : Nat) (f : State → State) (h : s.t.lvl.code < low.code) :
    atLevel s low w f = illegal s w := by
  simp [atLevel, h]

/-- An aligned address. -/
theorem aligned_holds (s : State) (va : Word) (n : Nat) (f : State → State) (h : va.toNat % n = 0) : aligned s va n f = f s := by
  simp [aligned, h]

/-- An address that is not aligned: the alignment trap with that address. -/
theorem aligned_fails (s : State) (va : Word) (n : Nat) (f : State → State) (h : va.toNat % n ≠ 0) :
    aligned s va n f = trapHere s 2 va := by
  simp [aligned, h]

/-- After an access that no watchpoint matches. -/
theorem afterAccess_unwatched (s : State) (va : Word) (n : Nat) (r w : Bool) (h : watched s va n r w = false) :
    afterAccess s va n r w = s := by
  simp [afterAccess, h]

/-- A load whose access succeeds. -/
theorem loadOp_ok (d : Reg) (ea : Word) (n v : Nat) (zero : Bool) (s s1 : State) (ha : ea.toNat % n = 0)
    (hl : loadNat s ea n = (s1, .ok v)) (hw : watched (complete (wr s1 d (extendTo n v zero))) ea n true false = false) :
    loadOp d ea n zero s = complete (wr s1 d (extendTo n v zero)) := by
  simp [loadOp, aligned_holds _ _ _ _ ha, hl, afterAccess_unwatched _ _ _ _ _ hw]

/-- A load whose access faults traps at the instruction. -/
theorem loadOp_error (d : Reg) (ea : Word) (n : Nat) (zero : Bool) (f : Flt) (s s1 : State) (ha : ea.toNat % n = 0)
    (hl : loadNat s ea n = (s1, .error f)) : loadOp d ea n zero s = fltTrap s1 f := by
  simp [loadOp, aligned_holds _ _ _ _ ha, hl]

/-- A store whose address no leaf overlaps and whose access succeeds. -/
theorem storeOp_ok (d : Reg) (ea : Word) (n : Nat) (u : Unit) (s s1 : State) (ha : ea.toNat % n = 0)
    (hg : ∀ f, writeGuard s .write ea n f = f s) (hl : storeNat s ea n ((rd s d).toNat % 2 ^ (8 * n)) = (s1, .ok u))
    (hw : watched (complete s1) ea n false true = false) : storeOp d ea n s = complete s1 := by
  simp [storeOp, storeThen, aligned_holds _ _ _ _ ha, hg, hl, afterAccess_unwatched _ _ _ _ _ hw]

/-- A store whose access faults traps at the instruction. -/
theorem storeOp_error (d : Reg) (ea : Word) (n : Nat) (f : Flt) (s s1 : State) (ha : ea.toNat % n = 0)
    (hg : ∀ g, writeGuard s .write ea n g = g s) (hl : storeNat s ea n ((rd s d).toNat % 2 ^ (8 * n)) = (s1, .error f)) :
    storeOp d ea n s = fltTrap s1 f := by
  simp [storeOp, storeThen, aligned_holds _ _ _ _ ha, hg, hl]

/-- Starting a chunk after an instruction that acts outside of chunks keeps the thread's registers and level. -/
theorem rebase_keeps (s : State) : (rebase s).t.a = s.t.a ∧ (rebase s).t.lvl = s.t.lvl ∧ (rebase s).mem = s.mem := ⟨rfl, rfl, rfl⟩

/-- With no device write uncommitted a thread has none that a fatal trap waits for. -/
theorem writesDevices_none (s : State) (h : noDevWrites s) : writesDevices s = false := by
  obtain ⟨h1, h2⟩ := h
  cases hc : s.t.closed with
  | none => simp [writesDevices, h1, hc]
  | some c => simp [writesDevices, h1, hc, h2 c hc]

/-- Where a trap goes: a fatal one dumps and halts, once the device writes of its thread have committed (R378); any other enters H or S with what
it saves. -/
theorem takeTrap_cases (s : State) (tr : Trap) (resume : Nat) (toH fatal8 stopped : Bool) :
    (writesDevices s = true ∧ isFatal s tr toH fatal8 = true ∧ takeTrap s tr resume toH fatal8 stopped =
      rebase (modT (commitOpen (commitSealed s)) fun t => { t with deferred := some tr, a := { t.a with pc := resume } })) ∨
    ∃ u dbl, (takeTrap s tr resume toH fatal8 stopped = haltThread (writeDump u tr resume true 0)) ∨
      (takeTrap s tr resume toH fatal8 stopped =
        rebase (modT u fun t => enterH { t with stall := .none, run := .running } tr resume dbl)) ∨
      (takeTrap s tr resume toH fatal8 stopped =
        rebase (modT u fun t => enterS { t with stall := .none, run := .running } tr resume)) := by
  unfold takeTrap
  split
  · next h => simp only [Bool.and_eq_true] at h; exact .inl ⟨h.2, h.1, rfl⟩
  refine .inr ?_
  dsimp only
  generalize commitOpen (if tr.cause = 15 then journalEvent (commitSealed s) 4 tr.addr
    else if (fatal8 && tr.cause == 8) = true then journalEvent (commitSealed s) 6 tr.addr else commitSealed s) = v
  generalize isFatal v tr toH fatal8 = fatal
  generalize trapToH v tr toH = h
  cases fatal
  · cases h
    · exact ⟨_, false, .inr (.inr rfl)⟩
    · exact ⟨_, _, .inr (.inl rfl)⟩
  · exact ⟨_, false, .inl rfl⟩

/-- What entry to S leaves in the thread (R387). -/
theorem enterS_saves (t : Thread) (tr : Trap) (resume : Nat) :
    (enterS t tr resume).lvl = .s ∧ (enterS t tr resume).a.pc = t.tvec.toNat ∧ (enterS t tr resume).a.x = t.a.x ∧
    (enterS t tr resume).trappc = pcBits resume ∧ (enterS t tr resume).trapaddr = tr.addr := ⟨rfl, rfl, rfl, rfl, rfl⟩

/-- What entry to H leaves in the thread (R387). -/
theorem enterH_saves (t : Thread) (tr : Trap) (resume : Nat) (dbl : Bool) :
    (enterH t tr resume dbl).lvl = .h ∧ (enterH t tr resume dbl).a.pc = t.hvec.toNat ∧ (enterH t tr resume dbl).a.x = t.a.x ∧
    (enterH t tr resume dbl).htrappc = pcBits resume ∧ (enterH t tr resume dbl).htrapaddr = tr.addr := ⟨rfl, rfl, rfl, rfl, rfl⟩

/-- IRET from S or U's handler goes to TRAPPC, from H to HTRAPPC (R397). -/
theorem returnFrom_pc (s : State) :
    (returnFrom s).t.a.pc = if s.t.lvl = .s then s.t.trappc.toNat else s.t.htrappc.toNat := by
  by_cases h : s.t.lvl = .s <;> simp [returnFrom, rebase, modT, countOne, h]

/-- A pre-emption request is refused, or marks the thread. -/
theorem requestPreemption_cases (s : State) (tid : Nat) (byH : Bool) (vf : Nat) :
    requestPreemption s tid byH vf = (s, false) ∨
    ∃ u t, u = ungate (wakeClock s (coreOf tid)) (coreOf tid) ∧
      requestPreemption s tid byH vf = (putThread u tid t, true) ∧ t.a = (threadAt u tid).a := by
  unfold requestPreemption
  dsimp only
  split
  · exact .inl rfl
  · refine .inr ⟨_, _, rfl, rfl, ?_⟩
    split <;> rfl

/-- The thread that moves already has the turn. -/
@[simp] theorem switchTo_self (s : State) : switchTo s s.cur = s := by simp [switchTo]

/-- The turn goes to the thread named. -/
@[simp] theorem switchTo_cur (s : State) (tid : Nat) : (switchTo s tid).cur = tid := by
  unfold switchTo
  split
  · next h => exact h.symm
  · split <;> rfl

/-- Giving the turn changes no byte of memory and no device register. -/
theorem switchTo_keeps (s : State) (tid : Nat) : (switchTo s tid).mem = s.mem ∧ (switchTo s tid).dev = s.dev := by
  unfold switchTo
  split
  · exact ⟨rfl, rfl⟩
  · split <;> exact ⟨rfl, rfl⟩

/-- The thread that takes the turn finds its own state. -/
theorem switchTo_t (s : State) (tid : Nat) : (switchTo s tid).t = threadAt s tid := by
  unfold switchTo
  split
  · next h => subst h; simp [threadAt]
  · split <;> rfl

/-- Acting as the thread that moves. -/
theorem onThread_self (s : State) (f : State → State) : onThread s s.cur f = switchTo (f s) s.cur := by simp [onThread]

/-- What comes to a core that is not at rest finds its clock where it is. -/
theorem wakeClock_busy (s : State) (core : Nat) (h : (coreAt s core).waits = false) : wakeClock s core = s := by
  simp [wakeClock, h]

/-- What arrives for a core whose clock runs acts at once. -/
theorem arriveAt_running (s : State) (core : Nat) (i : Instr) (f : State → State) (w : (coreAt s core).waits = false)
    (g : (coreAt s core).gated = false) (r : (coreAt s core).relock = none) (o : (coreAt s core).off = false) :
    arriveAt s core i f = f s := by
  simp [arriveAt, arriveNow, wakeClock_busy s core w, ungate, g, r, o]

/-- What arrives for a core in a relock is kept (R135). -/
theorem arriveAt_stopped (s : State) (core : Nat) (i : Instr) (f : State → State) (r : Nat × Word)
    (w : (coreAt s core).waits = false) (g : (coreAt s core).gated = false) (h : (coreAt s core).relock = some r) :
    arriveAt s core i f = putCore s core { coreAt s core with inbound := (coreAt s core).inbound ++ [i] } := by
  simp [arriveAt, arriveNow, wakeClock_busy s core w, ungate, g, h]

/-- A core that is not gated has nothing to resume from. -/
theorem ungate_running (s : State) (core : Nat) (h : (coreAt s core).gated = false) : ungate s core = s := by
  simp [ungate, h]

/-- With no device write uncommitted, an instruction that asks a unit something acts at once. -/
theorem settled_noDevWrites (s : State) (f : State → State) (h : noDevWrites s) : settled s f = f s := by
  simp [settled, writesDevices_none s h]

/-- A thread that wants slices waits, or has them from now on, whoever held none of them. -/
theorem reserve_cases (s : State) : reserve s = s ∨
    (s.t.reserving = false ∧ slicesFree s s.t.wanted = true ∧ (reserve s).t.reserving = true ∧
      (reserve s).held = s.t.wanted.map (fun sl => (sl, s.cur)) ++ s.held) := by
  unfold reserve
  split
  · exact .inl rfl
  · next h =>
    simp only [Bool.or_eq_true, Bool.not_eq_true', not_or, Bool.not_eq_true, Bool.not_eq_false] at h
    exact .inr ⟨h.1.2, h.2, rfl, rfl⟩

/-- An instruction that is issued acts, or waits while something that comes before it is done; or it stops as exec stops (R272). -/
theorem runFitting_cases (i : Instr) (w : Nat) (s : State) :
    (∃ t, exec i s = .next t ∧ (runFitting i w s = .next (acted i w s t) ∨
      ∃ u, (u = commitClosed s ∨ u = settleSealed s ∨ u = makeRoom s t) ∧
        runFitting i w s = .next (modT u fun t => { t with begun := some s.t.a.pc }))) ∨
    ((∀ t, exec i s ≠ .next t) ∧ runFitting i w s = exec i s) := by
  unfold runFitting
  cases h : exec i s with
  | next t =>
    refine .inl ⟨t, rfl, ?_⟩
    dsimp only
    split
    · refine .inr ⟨_, ?_, rfl⟩
      unfold commitFirst
      split
      · exact .inl rfl
      · exact .inr (.inl rfl)
    · split
      · exact .inl rfl
      · exact .inr ⟨_, .inr (.inr rfl), rfl⟩
  | fault f => exact .inr ⟨fun _ => by simp, rfl⟩
  | refused r => exact .inr ⟨fun _ => by simp, rfl⟩

/-- An instruction whose outcome fits its chunk, or that has given the turn away, acts. -/
theorem runFitting_fits (i : Instr) (w : Nat) (s t : State) (h : exec i s = .next t) (u : undercut s t = false)
    (f : fits t = true ∨ t.cur ≠ s.cur) : runFitting i w s = .next (acted i w s t) := by
  unfold runFitting
  rw [h]
  rcases f with f | f <;> simp [u, f]

/-- A step of a module in reset stops where nothing is due that acts on the module alone, and does that where it is; any other is the next move. -/
theorem step_cases (s : State) :
    (s.holdReset = true ∧ s.agenda.find? Due.ofModule = none ∧ step s = .fault .heldInReset) ∨
    (∃ d, s.holdReset = true ∧ s.agenda.find? Due.ofModule = some d ∧ step s = heldInReset s) ∨
    (s.holdReset = false ∧ step s = nextMove s) := by
  unfold step
  cases s.holdReset
  · exact .inr (.inr ⟨rfl, rfl⟩)
  · cases h : s.agenda.find? Due.ofModule
    · exact .inl ⟨rfl, rfl, by simp [heldInReset, h]⟩
    · exact .inr (.inl ⟨_, rfl, rfl, rfl⟩)

/-- The bytes of a little-endian value are those that it was read from. -/
theorem leBytes_leNat (f : Nat → Byte) (k n : Nat) : leBytes n (leNat f k n) = (List.range' k n).map f := by
  induction n generalizing k with
  | zero => rfl
  | succ n ih =>
    simp only [leNat, leBytes, List.range', List.map_cons]
    have h := (f k).isLt
    congr 1
    · apply BitVec.eq_of_toNat_eq; simp only [BitVec.toNat_ofNat]; omega
    · rw [← ih]; congr 1; omega

/-- s with other lines read by its open chunk. -/
def withReads (s : State) (r : List Nat) : State := modT s fun t => { t with chunk := { t.chunk with readL := r } }

/-- Nor does the check of a frame. -/
theorem frameCheck_withReads (s : State) (r : List Nat) (w : Who) (k : Nat) : frameCheck (withReads s r) w k = frameCheck s w k := by
  have h : ∀ f, fotEntry (withReads s r) f = fotEntry s f := fun _ => rfl
  simp only [frameCheck, fotOf, h]

/-- Nor does a device register. -/
theorem dev_withReads (s : State) (r : List Nat) : (withReads s r).dev = s.dev := rfl

/-- Nor does what one reads as. -/
theorem devGet_withReads (s : State) (r : List Nat) (pa : Nat) : devGet (withReads s r) pa = devGet s pa := by
  unfold devGet; rw [dev_withReads]

/-- Nor does the size of a die's SRAM. -/
theorem sramMib_withReads (s : State) (r : List Nat) : sramMib (withReads s r) = sramMib s := by
  funext d; unfold sramMib; rw [devGet_withReads]

/-- Nor does a place in a local window. -/
theorem localPlace_withReads (s : State) (r : List Nat) (w : Who) (va : Nat) : localPlace (withReads s r) w va = localPlace s w va := by
  have hf : frameCheck (withReads s r) w = frameCheck s w := funext fun k => frameCheck_withReads s r w k
  unfold localPlace
  rw [sramMib_withReads, hf]

/-- An address of the local window is looked up with no walk. -/
theorem lookup_local (s : State) (w : Who) (va : Word) (k : Nat) (h1 : 4503595332403200 ≤ va.toNat) (h2 : va.toNat < 4503599627370496)
    (h : localPlace s w va.toNat = .ok k) : lookup s w .read va = .ok (k, none) := by
  simp only [lookup, h]
  rw [if_neg (by omega), if_pos h1]; rfl

/-- What a thread sees does not depend on the lines that it has read. -/
theorem viewByte_withReads (s : State) (r : List Nat) (k : Nat) : viewByte (withReads s r) k = viewByte s k := rfl

/-- Nor does whom it acts as. -/
theorem who_withReads (s : State) (r : List Nat) : who (withReads s r) = who s := rfl

/-- Nor does what it meets of poison. -/
theorem poison_withReads (s : State) (r : List Nat) (k n : Nat) : meetsPoison (withReads s r) k n = meetsPoison s k n := rfl

/-- An address of the local window leads to a byte of memory. -/
def isLocal (s : State) (va : Word) (k : Nat) : Prop :=
  4503595332403200 ≤ va.toNat ∧ va.toNat < 4503599627370496 ∧ localPlace s (who s) va.toNat = .ok k ∧ isDevice k = false

/-- A load from the local window reads its bytes and leaves a line in the read set. -/
theorem loadNat_local (s : State) (r : List Nat) (va : Word) (k n : Nat) (h : isLocal s va k) (hp : s.poison = [])
    (hr : s.t.redo = none) :
    ∃ r', loadNat (withReads s r) va n = (withReads s r', .ok (leNat (viewByte s) k n)) := by
  obtain ⟨h1, h2, h3, h4⟩ := h
  refine ⟨(linesOf k n).foldl addItem r, ?_⟩
  have hq : meetsPoison (withReads s r) k n = false := by rw [poison_withReads]; simp [meetsPoison, hp]
  have hv : viewByte (withReads s r) = viewByte s := by funext j; rfl
  have ho : ordered (withReads s r) k n = withReads s r := by
    have hg : governed (withReads s r) k n = false := by
      unfold governed; rw [show (withReads s r).t.redo = none from hr]; rfl
    unfold ordered; rw [hg]; rfl
  have hr : readPlace (withReads s r) k n = (withReads s ((linesOf k n).foldl addItem r), .ok (leNat (viewByte s) k n)) := by
    unfold readPlace
    rw [if_neg (by simp [h4]), if_neg (by simp [hq]), hv, ho]; rfl
  have ht : translate (withReads s r) (who (withReads s r)) .read va = (withReads s r, .ok k) := by
    have hd : demand (withReads s r) (who (withReads s r)) .read va = (withReads s r, .ok k) := by
      unfold demand
      rw [lookup_local (withReads s r) _ va k h1 h2 (by rw [localPlace_withReads, who_withReads]; exact h3)]
      simp [tblStore]
    unfold Sys2Proof.Machine.translate
    rw [hd]
    simp only [Chunk.use, if_pos h1]; rfl
  unfold loadNat
  rw [ht]; dsimp only; rw [hr]

/-- So do loads of whole lines. -/
theorem loadLines_local (s : State) (n : Nat) : ∀ (r : List Nat) (va : Word) (k : Nat),
    (∀ i < n, isLocal s (va + BitVec.ofNat 64 (64 * i)) (k + 64 * i)) →
    s.poison = [] → s.t.redo = none → ∃ r', loadLines (withReads s r) va n = (withReads s r', .ok ((List.range' k (64 * n)).map (viewByte s))) := by
  induction n with
  | zero => intro r va k _ _ _; exact ⟨r, by simp [loadLines]⟩
  | succ n ih =>
    intro r va k h hp hn
    have h0 := h 0 (by omega)
    obtain ⟨r1, h1⟩ := loadNat_local s r va k 64 (by simpa using h0) hp hn
    obtain ⟨r2, h2⟩ := ih r1 (va + 64) (k + 64) (fun i hi => by
      have := h (i + 1) (by omega)
      have e : va + 64 + BitVec.ofNat 64 (64 * i) = va + BitVec.ofNat 64 (64 * (i + 1)) := by
        apply BitVec.eq_of_toNat_eq; simp [BitVec.toNat_add]; omega
      rw [e, show k + 64 + 64 * i = k + 64 * (i + 1) by omega]; exact this) hp hn
    refine ⟨r2, ?_⟩
    simp only [loadLines, h1, h2, leBytes_leNat]
    rw [← List.map_append, show 64 * (n + 1) = 64 + 64 * n by omega, List.range'_append_1]

end Sys2Proof.Laws
end

