-- ==== Sys2Proof/Laws/PerInstr.lean ====
section
/-! SUPPORT. Laws/PerInstr.lean: one lemma for each instruction and family of lemmas: every encoding is a 32-bit word. -/

namespace Sys2Proof.Laws.Encodes

open Sys2Proof

/-- The encoding of an instruction fits a control word (R29); an event has none and gives 0. -/
def Statement (i : Instr) : Prop := encode i < 4294967296

theorem add (d : Reg) (a : Reg) (b : Reg) : Statement (.add d a b) := by
  show 67108864 + d.toNat * 2097152 + a.toNat * 65536 + b.toNat * 2048 < 4294967296
  omega
theorem sub (d : Reg) (a : Reg) (b : Reg) : Statement (.sub d a b) := by
  show 67108896 + d.toNat * 2097152 + a.toNat * 65536 + b.toNat * 2048 < 4294967296
  omega
theorem mul (d : Reg) (a : Reg) (b : Reg) : Statement (.mul d a b) := by
  show 67108928 + d.toNat * 2097152 + a.toNat * 65536 + b.toNat * 2048 < 4294967296
  omega
theorem mulh (d : Reg) (a : Reg) (b : Reg) : Statement (.mulh d a b) := by
  show 67108960 + d.toNat * 2097152 + a.toNat * 65536 + b.toNat * 2048 < 4294967296
  omega
theorem mulhu (d : Reg) (a : Reg) (b : Reg) : Statement (.mulhu d a b) := by
  show 67108992 + d.toNat * 2097152 + a.toNat * 65536 + b.toNat * 2048 < 4294967296
  omega
theorem div (d : Reg) (a : Reg) (b : Reg) : Statement (.div d a b) := by
  show 67109024 + d.toNat * 2097152 + a.toNat * 65536 + b.toNat * 2048 < 4294967296
  omega
theorem divu (d : Reg) (a : Reg) (b : Reg) : Statement (.divu d a b) := by
  show 67109056 + d.toNat * 2097152 + a.toNat * 65536 + b.toNat * 2048 < 4294967296
  omega
theorem rem (d : Reg) (a : Reg) (b : Reg) : Statement (.rem d a b) := by
  show 67109088 + d.toNat * 2097152 + a.toNat * 65536 + b.toNat * 2048 < 4294967296
  omega
theorem remu (d : Reg) (a : Reg) (b : Reg) : Statement (.remu d a b) := by
  show 67109120 + d.toNat * 2097152 + a.toNat * 65536 + b.toNat * 2048 < 4294967296
  omega
theorem and (d : Reg) (a : Reg) (b : Reg) : Statement (.and d a b) := by
  show 67109152 + d.toNat * 2097152 + a.toNat * 65536 + b.toNat * 2048 < 4294967296
  omega
theorem or (d : Reg) (a : Reg) (b : Reg) : Statement (.or d a b) := by
  show 67109184 + d.toNat * 2097152 + a.toNat * 65536 + b.toNat * 2048 < 4294967296
  omega
theorem xor (d : Reg) (a : Reg) (b : Reg) : Statement (.xor d a b) := by
  show 67109216 + d.toNat * 2097152 + a.toNat * 65536 + b.toNat * 2048 < 4294967296
  omega
theorem andn (d : Reg) (a : Reg) (b : Reg) : Statement (.andn d a b) := by
  show 67109248 + d.toNat * 2097152 + a.toNat * 65536 + b.toNat * 2048 < 4294967296
  omega
theorem orn (d : Reg) (a : Reg) (b : Reg) : Statement (.orn d a b) := by
  show 67109280 + d.toNat * 2097152 + a.toNat * 65536 + b.toNat * 2048 < 4294967296
  omega
theorem sll (d : Reg) (a : Reg) (b : Reg) : Statement (.sll d a b) := by
  show 67109312 + d.toNat * 2097152 + a.toNat * 65536 + b.toNat * 2048 < 4294967296
  omega
theorem srl (d : Reg) (a : Reg) (b : Reg) : Statement (.srl d a b) := by
  show 67109344 + d.toNat * 2097152 + a.toNat * 65536 + b.toNat * 2048 < 4294967296
  omega
theorem sra (d : Reg) (a : Reg) (b : Reg) : Statement (.sra d a b) := by
  show 67109376 + d.toNat * 2097152 + a.toNat * 65536 + b.toNat * 2048 < 4294967296
  omega
theorem ror (d : Reg) (a : Reg) (b : Reg) : Statement (.ror d a b) := by
  show 67109408 + d.toNat * 2097152 + a.toNat * 65536 + b.toNat * 2048 < 4294967296
  omega
theorem min (d : Reg) (a : Reg) (b : Reg) : Statement (.min d a b) := by
  show 67109440 + d.toNat * 2097152 + a.toNat * 65536 + b.toNat * 2048 < 4294967296
  omega
theorem max (d : Reg) (a : Reg) (b : Reg) : Statement (.max d a b) := by
  show 67109472 + d.toNat * 2097152 + a.toNat * 65536 + b.toNat * 2048 < 4294967296
  omega
theorem minu (d : Reg) (a : Reg) (b : Reg) : Statement (.minu d a b) := by
  show 67109504 + d.toNat * 2097152 + a.toNat * 65536 + b.toNat * 2048 < 4294967296
  omega
theorem maxu (d : Reg) (a : Reg) (b : Reg) : Statement (.maxu d a b) := by
  show 67109536 + d.toNat * 2097152 + a.toNat * 65536 + b.toNat * 2048 < 4294967296
  omega
theorem slt (d : Reg) (a : Reg) (b : Reg) : Statement (.slt d a b) := by
  show 67109568 + d.toNat * 2097152 + a.toNat * 65536 + b.toNat * 2048 < 4294967296
  omega
theorem sltu (d : Reg) (a : Reg) (b : Reg) : Statement (.sltu d a b) := by
  show 67109600 + d.toNat * 2097152 + a.toNat * 65536 + b.toNat * 2048 < 4294967296
  omega
theorem addi (d : Reg) (a : Reg) (i : BitVec 16) : Statement (.addi d a i) := by
  show 134217728 + d.toNat * 2097152 + a.toNat * 65536 + i.toNat < 4294967296
  omega
theorem andi (d : Reg) (a : Reg) (i : BitVec 16) : Statement (.andi d a i) := by
  show 201326592 + d.toNat * 2097152 + a.toNat * 65536 + i.toNat < 4294967296
  omega
theorem ori (d : Reg) (a : Reg) (i : BitVec 16) : Statement (.ori d a i) := by
  show 268435456 + d.toNat * 2097152 + a.toNat * 65536 + i.toNat < 4294967296
  omega
theorem xori (d : Reg) (a : Reg) (i : BitVec 16) : Statement (.xori d a i) := by
  show 335544320 + d.toNat * 2097152 + a.toNat * 65536 + i.toNat < 4294967296
  omega
theorem slli (d : Reg) (a : Reg) (k : BitVec 6) : Statement (.slli d a k) := by
  show 402653184 + d.toNat * 2097152 + a.toNat * 65536 + k.toNat < 4294967296
  omega
theorem srli (d : Reg) (a : Reg) (k : BitVec 6) : Statement (.srli d a k) := by
  show 402669568 + d.toNat * 2097152 + a.toNat * 65536 + k.toNat < 4294967296
  omega
theorem srai (d : Reg) (a : Reg) (k : BitVec 6) : Statement (.srai d a k) := by
  show 402685952 + d.toNat * 2097152 + a.toNat * 65536 + k.toNat < 4294967296
  omega
theorem slti (d : Reg) (a : Reg) (i : BitVec 15) : Statement (.slti d a i) := by
  show 469762048 + d.toNat * 2097152 + a.toNat * 65536 + i.toNat < 4294967296
  omega
theorem sltiu (d : Reg) (a : Reg) (i : BitVec 15) : Statement (.sltiu d a i) := by
  show 469794816 + d.toNat * 2097152 + a.toNat * 65536 + i.toNat < 4294967296
  omega
theorem lui (d : Reg) (i : BitVec 16) : Statement (.lui d i) := by
  show 536870912 + d.toNat * 2097152 + i.toNat < 4294967296
  omega
theorem addpc (d : Reg) (i : BitVec 16) : Statement (.addpc d i) := by
  show 603979776 + d.toNat * 2097152 + i.toNat < 4294967296
  omega
theorem clz (d : Reg) (a : Reg) : Statement (.clz d a) := by
  show 671088640 + d.toNat * 2097152 + a.toNat * 65536 < 4294967296
  omega
theorem ctz (d : Reg) (a : Reg) : Statement (.ctz d a) := by
  show 671088672 + d.toNat * 2097152 + a.toNat * 65536 < 4294967296
  omega
theorem popc (d : Reg) (a : Reg) : Statement (.popc d a) := by
  show 671088704 + d.toNat * 2097152 + a.toNat * 65536 < 4294967296
  omega
theorem sext (d : Reg) (a : Reg) (n : Reg) : Statement (.sext d a n) := by
  show 671088736 + d.toNat * 2097152 + a.toNat * 65536 + n.toNat * 2048 < 4294967296
  omega
theorem zext (d : Reg) (a : Reg) (n : Reg) : Statement (.zext d a n) := by
  show 671088768 + d.toNat * 2097152 + a.toNat * 65536 + n.toNat * 2048 < 4294967296
  omega
theorem bswap (d : Reg) (a : Reg) : Statement (.bswap d a) := by
  show 671088800 + d.toNat * 2097152 + a.toNat * 65536 < 4294967296
  omega
theorem lea (s : Reg) (a : Reg) (b : Reg) : Statement (.lea s a b) := by
  show 671088832 + s.toNat * 2097152 + a.toNat * 65536 + b.toNat * 2048 < 4294967296
  omega
theorem insh (d : Reg) (a : Reg) (b : Reg) : Statement (.insh d a b) := by
  show 671088864 + d.toNat * 2097152 + a.toNat * 65536 + b.toNat * 2048 < 4294967296
  omega
theorem csel (d : Reg) (a : Reg) (b : Reg) : Statement (.csel d a b) := by
  show 671088896 + d.toNat * 2097152 + a.toNat * 65536 + b.toNat * 2048 < 4294967296
  omega
theorem beq (a : Reg) (b : Reg) (o : BitVec 16) : Statement (.beq a b o) := by
  show 805306368 + a.toNat * 2097152 + b.toNat * 65536 + o.toNat < 4294967296
  omega
theorem bne (a : Reg) (b : Reg) (o : BitVec 16) : Statement (.bne a b o) := by
  show 872415232 + a.toNat * 2097152 + b.toNat * 65536 + o.toNat < 4294967296
  omega
theorem blt (a : Reg) (b : Reg) (o : BitVec 16) : Statement (.blt a b o) := by
  show 939524096 + a.toNat * 2097152 + b.toNat * 65536 + o.toNat < 4294967296
  omega
theorem bge (a : Reg) (b : Reg) (o : BitVec 16) : Statement (.bge a b o) := by
  show 1006632960 + a.toNat * 2097152 + b.toNat * 65536 + o.toNat < 4294967296
  omega
theorem bltu (a : Reg) (b : Reg) (o : BitVec 16) : Statement (.bltu a b o) := by
  show 1073741824 + a.toNat * 2097152 + b.toNat * 65536 + o.toNat < 4294967296
  omega
theorem bgeu (a : Reg) (b : Reg) (o : BitVec 16) : Statement (.bgeu a b o) := by
  show 1140850688 + a.toNat * 2097152 + b.toNat * 65536 + o.toNat < 4294967296
  omega
theorem jal (d : Reg) (o : BitVec 21) : Statement (.jal d o) := by
  show 1207959552 + d.toNat * 2097152 + o.toNat < 4294967296
  omega
theorem jalr (d : Reg) (a : Reg) (i : BitVec 16) : Statement (.jalr d a i) := by
  show 1275068416 + d.toNat * 2097152 + a.toNat * 65536 + i.toNat < 4294967296
  omega
theorem jtab (d : Reg) (a : Reg) (b : Reg) : Statement (.jtab d a b) := by
  show 1342177280 + d.toNat * 2097152 + a.toNat * 65536 + b.toNat * 2048 < 4294967296
  omega
theorem ld (d : Reg) (a : Reg) (i : BitVec 13) (s : BitVec 2) (n : BitVec 1) : Statement (.ld d a i s n) := by
  show 1610612736 + d.toNat * 2097152 + a.toNat * 65536 + i.toNat * 8 + s.toNat * 2 + n.toNat < 4294967296
  omega
theorem st (d : Reg) (a : Reg) (i : BitVec 13) (s : BitVec 2) : Statement (.st d a i s) := by
  show 1677721600 + d.toNat * 2097152 + a.toNat * 65536 + i.toNat * 8 + s.toNat * 2 < 4294967296
  omega
theorem ldx (d : Reg) (a : Reg) (b : Reg) (n : BitVec 1) (s : BitVec 2) : Statement (.ldx d a b n s) := by
  show 1744830464 + d.toNat * 2097152 + a.toNat * 65536 + b.toNat * 2048 + n.toNat * 4 + s.toNat < 4294967296
  omega
theorem stx (d : Reg) (a : Reg) (b : Reg) (s : BitVec 2) : Statement (.stx d a b s) := by
  show 1744830496 + d.toNat * 2097152 + a.toNat * 65536 + b.toNat * 2048 + s.toNat < 4294967296
  omega
theorem pref (a : Reg) : Statement (.pref a) := by
  show 1744830528 + a.toNat * 65536 < 4294967296
  omega
theorem csrrd (d : Reg) (c : BitVec 12) : Statement (.csrrd d c) := by
  show 3221225472 + d.toNat * 2097152 + c.toNat < 4294967296
  omega
theorem csrwr (d : Reg) (a : Reg) (c : BitVec 12) : Statement (.csrwr d a c) := by
  show 3221229568 + d.toNat * 2097152 + a.toNat * 65536 + c.toNat < 4294967296
  omega
theorem csrset (d : Reg) (a : Reg) (c : BitVec 12) : Statement (.csrset d a c) := by
  show 3221233664 + d.toNat * 2097152 + a.toNat * 65536 + c.toNat < 4294967296
  omega
theorem csrclr (d : Reg) (a : Reg) (c : BitVec 12) : Statement (.csrclr d a c) := by
  show 3221237760 + d.toNat * 2097152 + a.toNat * 65536 + c.toNat < 4294967296
  omega
theorem rand (d : Reg) : Statement (.rand d) := by
  show 3221241856 + d.toNat * 2097152 < 4294967296
  omega
theorem park (d : Reg) : Statement (.park d) := by
  show 3288334336 + d.toNat * 2097152 < 4294967296
  omega
theorem parkC (a : Reg) : Statement (.parkC a) := by
  show 3288334368 + a.toNat * 65536 < 4294967296
  omega
theorem wake (d : Reg) (a : Reg) (b : Reg) : Statement (.wake d a b) := by
  show 3288334400 + d.toNat * 2097152 + a.toNat * 65536 + b.toNat * 2048 < 4294967296
  omega
theorem nap : Statement .nap := by
  show 3288334432 < 4294967296
  decide
theorem yield : Statement .yield := by
  show 3288334464 < 4294967296
  decide
theorem fence (k : BitVec 2) : Statement (.fence k) := by
  show 1879048192 + k.toNat < 4294967296
  omega
theorem chunkend : Statement .chunkend := by
  show 1879048224 < 4294967296
  decide
theorem chunklim (d : Reg) (a : Reg) : Statement (.chunklim d a) := by
  show 1879048256 + d.toNat * 2097152 + a.toNat * 65536 < 4294967296
  omega
theorem waitv (a : Reg) (b : Reg) : Statement (.waitv a b) := by
  show 1879048288 + a.toNat * 65536 + b.toNat * 2048 < 4294967296
  omega
theorem ldaq (d : Reg) (a : Reg) (c : BitVec 2) (s : BitVec 2) : Statement (.ldaq d a c s) := by
  show 1879048320 + d.toNat * 2097152 + a.toNat * 65536 + c.toNat * 8 + s.toNat < 4294967296
  omega
theorem strl (d : Reg) (a : Reg) (c : BitVec 2) (s : BitVec 2) : Statement (.strl d a c s) := by
  show 1879048352 + d.toNat * 2097152 + a.toNat * 65536 + c.toNat * 8 + s.toNat < 4294967296
  omega
theorem amoadd (d : Reg) (a : Reg) (b : Reg) (p : BitVec 1) (s : BitVec 2) : Statement (.amoadd d a b p s) := by
  show 1811939328 + d.toNat * 2097152 + a.toNat * 65536 + b.toNat * 2048 + p.toNat * 8 + s.toNat < 4294967296
  omega
theorem amoand (d : Reg) (a : Reg) (b : Reg) (p : BitVec 1) (s : BitVec 2) : Statement (.amoand d a b p s) := by
  show 1811939360 + d.toNat * 2097152 + a.toNat * 65536 + b.toNat * 2048 + p.toNat * 8 + s.toNat < 4294967296
  omega
theorem amoor (d : Reg) (a : Reg) (b : Reg) (p : BitVec 1) (s : BitVec 2) : Statement (.amoor d a b p s) := by
  show 1811939392 + d.toNat * 2097152 + a.toNat * 65536 + b.toNat * 2048 + p.toNat * 8 + s.toNat < 4294967296
  omega
theorem amoxor (d : Reg) (a : Reg) (b : Reg) (p : BitVec 1) (s : BitVec 2) : Statement (.amoxor d a b p s) := by
  show 1811939424 + d.toNat * 2097152 + a.toNat * 65536 + b.toNat * 2048 + p.toNat * 8 + s.toNat < 4294967296
  omega
theorem amomin (d : Reg) (a : Reg) (b : Reg) (p : BitVec 1) (s : BitVec 2) : Statement (.amomin d a b p s) := by
  show 1811939456 + d.toNat * 2097152 + a.toNat * 65536 + b.toNat * 2048 + p.toNat * 8 + s.toNat < 4294967296
  omega
theorem amomax (d : Reg) (a : Reg) (b : Reg) (p : BitVec 1) (s : BitVec 2) : Statement (.amomax d a b p s) := by
  show 1811939488 + d.toNat * 2097152 + a.toNat * 65536 + b.toNat * 2048 + p.toNat * 8 + s.toNat < 4294967296
  omega
theorem amominu (d : Reg) (a : Reg) (b : Reg) (p : BitVec 1) (s : BitVec 2) : Statement (.amominu d a b p s) := by
  show 1811939520 + d.toNat * 2097152 + a.toNat * 65536 + b.toNat * 2048 + p.toNat * 8 + s.toNat < 4294967296
  omega
theorem amomaxu (d : Reg) (a : Reg) (b : Reg) (p : BitVec 1) (s : BitVec 2) : Statement (.amomaxu d a b p s) := by
  show 1811939552 + d.toNat * 2097152 + a.toNat * 65536 + b.toNat * 2048 + p.toNat * 8 + s.toNat < 4294967296
  omega
theorem amoswap (d : Reg) (a : Reg) (b : Reg) (p : BitVec 1) (q : BitVec 1) (s : BitVec 2) : Statement (.amoswap d a b p q s) := by
  show 1811939584 + d.toNat * 2097152 + a.toNat * 65536 + b.toNat * 2048 + p.toNat * 8 + q.toNat * 4 + s.toNat < 4294967296
  omega
theorem amocas (d : Reg) (a : Reg) (b : Reg) (p : BitVec 1) (q : BitVec 1) (s : BitVec 2) : Statement (.amocas d a b p q s) := by
  show 1811939616 + d.toNat * 2097152 + a.toNat * 65536 + b.toNat * 2048 + p.toNat * 8 + q.toNat * 4 + s.toNat < 4294967296
  omega
theorem amofadd (d : Reg) (a : Reg) (b : Reg) (p : BitVec 1) : Statement (.amofadd d a b p) := by
  show 1811939650 + d.toNat * 2097152 + a.toNat * 65536 + b.toNat * 2048 + p.toNat * 8 < 4294967296
  omega
theorem strip (d : Reg) (o : Reg) (b : Reg) (p : Reg) : Statement (.strip d o b p) := by
  show 1409286144 + d.toNat * 2097152 + o.toNat * 65536 + b.toNat * 2048 + p.toNat < 4294967296
  omega
theorem bev (k : Reg) (c : Reg) (o : BitVec 16) : Statement (.bev k c o) := by
  show 1476395008 + k.toNat * 2097152 + c.toNat * 65536 + o.toNat < 4294967296
  omega
theorem vsetl (d : Reg) (a : Reg) : Statement (.vsetl d a) := by
  show 2147483888 + d.toNat * 2097152 + a.toNat * 65536 < 4294967296
  omega
theorem force (v : Reg) : Statement (.force v) := by
  show 2147483889 + v.toNat * 2097152 < 4294967296
  omega
theorem vmat (v : Reg) : Statement (.vmat v) := by
  show 2147483890 + v.toNat * 2097152 < 4294967296
  omega
theorem vdrop (v : Reg) : Statement (.vdrop v) := by
  show 2147483891 + v.toNat * 2097152 < 4294967296
  omega
theorem vbcast (v : Reg) (a : Reg) (t : BitVec 4) : Statement (.vbcast v a t) := by
  show 2147483652 + v.toNat * 2097152 + a.toNat * 65536 + t.toNat * 16 < 4294967296
  omega
theorem vget (v : Reg) (a : Reg) (b : Reg) : Statement (.vget v a b) := by
  show 2147483893 + v.toNat * 2097152 + a.toNat * 65536 + b.toNat * 2048 < 4294967296
  omega
theorem vins (v : Reg) (a : Reg) (b : Reg) : Statement (.vins v a b) := by
  show 2147483894 + v.toNat * 2097152 + a.toNat * 65536 + b.toNat * 2048 < 4294967296
  omega
theorem vconf (v : Reg) (b : Reg) : Statement (.vconf v b) := by
  show 2147483895 + v.toNat * 2097152 + b.toNat * 2048 < 4294967296
  omega
theorem vcompact (v : Reg) (k : BitVec 3) (b : Reg) : Statement (.vcompact v k b) := by
  show 2147483896 + v.toNat * 2097152 + k.toNat * 65536 + b.toNat * 2048 < 4294967296
  omega
theorem mcnt (d : Reg) (k : BitVec 3) : Statement (.mcnt d k) := by
  show 2147483897 + d.toNat * 2097152 + k.toNat * 65536 < 4294967296
  omega
theorem mfirst (d : Reg) (k : BitVec 3) : Statement (.mfirst d k) := by
  show 2147483898 + d.toNat * 2097152 + k.toNat * 65536 < 4294967296
  omega
theorem mlogLogic (k : BitVec 3) (a : BitVec 3) (t : BitVec 4) (b : BitVec 3) : Statement (.mlogLogic k a t b) := by
  show 2147483899 + k.toNat * 2097152 + a.toNat * 65536 + t.toNat * 2048 + b.toNat * 256 < 4294967296
  omega
theorem mlogFromVector (k : BitVec 3) (v : Reg) : Statement (.mlogFromVector k v) := by
  show 2148008187 + k.toNat * 2097152 + v.toNat * 2048 < 4294967296
  omega
theorem mlogToVector (v : Reg) (a : BitVec 3) : Statement (.mlogToVector v a) := by
  show 2148532475 + v.toNat * 2097152 + a.toNat * 65536 < 4294967296
  omega
theorem vld (v : Reg) (a : Reg) (t : BitVec 4) : Statement (.vld v a t) := by
  show 2214592512 + v.toNat * 2097152 + a.toNat * 65536 + t.toNat * 16 < 4294967296
  omega
theorem vldFf (v : Reg) (a : Reg) (t : BitVec 4) : Statement (.vldFf v a t) := by
  show 2214592513 + v.toNat * 2097152 + a.toNat * 65536 + t.toNat * 16 < 4294967296
  omega
theorem vldM (k : BitVec 3) (a : Reg) : Statement (.vldM k a) := by
  show 2214592738 + k.toNat * 2097152 + a.toNat * 65536 < 4294967296
  omega
theorem vlds (v : Reg) (a : Reg) (b : Reg) (t : BitVec 4) : Statement (.vlds v a b t) := by
  show 2214592515 + v.toNat * 2097152 + a.toNat * 65536 + b.toNat * 2048 + t.toNat * 16 < 4294967296
  omega
theorem vldx (v : Reg) (a : Reg) (b : Reg) (t : BitVec 4) : Statement (.vldx v a b t) := by
  show 2214592516 + v.toNat * 2097152 + a.toNat * 65536 + b.toNat * 2048 + t.toNat * 16 < 4294967296
  omega
theorem vldseg (v : Reg) (a : Reg) (n : Reg) (t : BitVec 4) : Statement (.vldseg v a n t) := by
  show 2214592517 + v.toNat * 2097152 + a.toNat * 65536 + n.toNat * 2048 + t.toNat * 16 < 4294967296
  omega
theorem vldt (v : Reg) (a : Reg) (b : Reg) (t : BitVec 4) : Statement (.vldt v a b t) := by
  show 2214592518 + v.toNat * 2097152 + a.toNat * 65536 + b.toNat * 2048 + t.toNat * 16 < 4294967296
  omega
theorem vst (v : Reg) (a : Reg) (k : BitVec 3) (t : BitVec 4) : Statement (.vst v a k t) := by
  show 2281701376 + v.toNat * 2097152 + a.toNat * 65536 + k.toNat * 256 + t.toNat * 16 < 4294967296
  omega
theorem vsts (v : Reg) (a : Reg) (b : Reg) (k : BitVec 3) (t : BitVec 4) : Statement (.vsts v a b k t) := by
  show 2281701377 + v.toNat * 2097152 + a.toNat * 65536 + b.toNat * 2048 + k.toNat * 256 + t.toNat * 16 < 4294967296
  omega
theorem vstx (v : Reg) (a : Reg) (b : Reg) (k : BitVec 3) (t : BitVec 4) : Statement (.vstx v a b k t) := by
  show 2281701378 + v.toNat * 2097152 + a.toNat * 65536 + b.toNat * 2048 + k.toNat * 256 + t.toNat * 16 < 4294967296
  omega
theorem vstseg (v : Reg) (a : Reg) (n : Reg) (k : BitVec 3) (t : BitVec 4) : Statement (.vstseg v a n k t) := by
  show 2281701379 + v.toNat * 2097152 + a.toNat * 65536 + n.toNat * 2048 + k.toNat * 256 + t.toNat * 16 < 4294967296
  omega
theorem vstt (v : Reg) (a : Reg) (b : Reg) (k : BitVec 3) (t : BitVec 4) : Statement (.vstt v a b k t) := by
  show 2281701380 + v.toNat * 2097152 + a.toNat * 65536 + b.toNat * 2048 + k.toNat * 256 + t.toNat * 16 < 4294967296
  omega
theorem vscrAdd (v : Reg) (a : Reg) (b : Reg) (k : BitVec 3) (t : BitVec 4) : Statement (.vscrAdd v a b k t) := by
  show 2281701384 + v.toNat * 2097152 + a.toNat * 65536 + b.toNat * 2048 + k.toNat * 256 + t.toNat * 16 < 4294967296
  omega
theorem vscrMin (v : Reg) (a : Reg) (b : Reg) (k : BitVec 3) (t : BitVec 4) : Statement (.vscrMin v a b k t) := by
  show 2281701385 + v.toNat * 2097152 + a.toNat * 65536 + b.toNat * 2048 + k.toNat * 256 + t.toNat * 16 < 4294967296
  omega
theorem vscrMax (v : Reg) (a : Reg) (b : Reg) (k : BitVec 3) (t : BitVec 4) : Statement (.vscrMax v a b k t) := by
  show 2281701386 + v.toNat * 2097152 + a.toNat * 65536 + b.toNat * 2048 + k.toNat * 256 + t.toNat * 16 < 4294967296
  omega
theorem vscrAnd (v : Reg) (a : Reg) (b : Reg) (k : BitVec 3) (t : BitVec 4) : Statement (.vscrAnd v a b k t) := by
  show 2281701387 + v.toNat * 2097152 + a.toNat * 65536 + b.toNat * 2048 + k.toNat * 256 + t.toNat * 16 < 4294967296
  omega
theorem vscrOr (v : Reg) (a : Reg) (b : Reg) (k : BitVec 3) (t : BitVec 4) : Statement (.vscrOr v a b k t) := by
  show 2281701388 + v.toNat * 2097152 + a.toNat * 65536 + b.toNat * 2048 + k.toNat * 256 + t.toNat * 16 < 4294967296
  omega
theorem vscrXor (v : Reg) (a : Reg) (b : Reg) (k : BitVec 3) (t : BitVec 4) : Statement (.vscrXor v a b k t) := by
  show 2281701389 + v.toNat * 2097152 + a.toNat * 65536 + b.toNat * 2048 + k.toNat * 256 + t.toNat * 16 < 4294967296
  omega
theorem vredAdd (v : Reg) (d : Reg) (k : BitVec 3) (t : BitVec 4) : Statement (.vredAdd v d k t) := by
  show 2348810240 + v.toNat * 2097152 + d.toNat * 65536 + k.toNat * 256 + t.toNat * 16 < 4294967296
  omega
theorem vredMin (v : Reg) (d : Reg) (k : BitVec 3) (t : BitVec 4) : Statement (.vredMin v d k t) := by
  show 2348810241 + v.toNat * 2097152 + d.toNat * 65536 + k.toNat * 256 + t.toNat * 16 < 4294967296
  omega
theorem vredMax (v : Reg) (d : Reg) (k : BitVec 3) (t : BitVec 4) : Statement (.vredMax v d k t) := by
  show 2348810242 + v.toNat * 2097152 + d.toNat * 65536 + k.toNat * 256 + t.toNat * 16 < 4294967296
  omega
theorem vredAnd (v : Reg) (d : Reg) (k : BitVec 3) (t : BitVec 4) : Statement (.vredAnd v d k t) := by
  show 2348810243 + v.toNat * 2097152 + d.toNat * 65536 + k.toNat * 256 + t.toNat * 16 < 4294967296
  omega
theorem vredOr (v : Reg) (d : Reg) (k : BitVec 3) (t : BitVec 4) : Statement (.vredOr v d k t) := by
  show 2348810244 + v.toNat * 2097152 + d.toNat * 65536 + k.toNat * 256 + t.toNat * 16 < 4294967296
  omega
theorem vredXor (v : Reg) (d : Reg) (k : BitVec 3) (t : BitVec 4) : Statement (.vredXor v d k t) := by
  show 2348810245 + v.toNat * 2097152 + d.toNat * 65536 + k.toNat * 256 + t.toNat * 16 < 4294967296
  omega
theorem vrediMin (v : Reg) (d : Reg) (k : BitVec 3) (t : BitVec 4) : Statement (.vrediMin v d k t) := by
  show 2348810248 + v.toNat * 2097152 + d.toNat * 65536 + k.toNat * 256 + t.toNat * 16 < 4294967296
  omega
theorem vrediMax (v : Reg) (d : Reg) (k : BitVec 3) (t : BitVec 4) : Statement (.vrediMax v d k t) := by
  show 2348810249 + v.toNat * 2097152 + d.toNat * 65536 + k.toNat * 256 + t.toNat * 16 < 4294967296
  omega
theorem weave (o : BitVec 21) : Statement (.weave o) := by
  show 2415919104 + o.toNat < 4294967296
  omega
theorem mldw (s : BitVec 1) (a : Reg) (t : BitVec 4) : Statement (.mldw s a t) := by
  show 2684354560 + s.toNat * 2097152 + a.toNat * 65536 + t.toNat * 16 < 4294967296
  omega
theorem mrow (v : Reg) (a : Reg) (n : BitVec 2) (s : BitVec 1) (u : BitVec 2) (q : BitVec 3) (t : BitVec 4) : Statement (.mrow v a n s u q t) := by
  show 2684354561 + v.toNat * 2097152 + a.toNat * 65536 + n.toNat * 16384 + s.toNat * 8192 + u.toNat * 2048 + q.toNat * 256 + t.toNat * 16 < 4294967296
  omega
theorem mrowAcc (v : Reg) (a : Reg) (n : BitVec 2) (s : BitVec 1) (u : BitVec 2) (q : BitVec 3) (t : BitVec 4) : Statement (.mrowAcc v a n s u q t) := by
  show 2684354562 + v.toNat * 2097152 + a.toNat * 65536 + n.toNat * 16384 + s.toNat * 8192 + u.toNat * 2048 + q.toNat * 256 + t.toNat * 16 < 4294967296
  omega
theorem mslide (v : Reg) (a : Reg) (n : BitVec 2) (s : BitVec 1) (u : BitVec 2) (q : BitVec 3) (t : BitVec 4) : Statement (.mslide v a n s u q t) := by
  show 2684354563 + v.toNat * 2097152 + a.toNat * 65536 + n.toNat * 16384 + s.toNat * 8192 + u.toNat * 2048 + q.toNat * 256 + t.toNat * 16 < 4294967296
  omega
theorem mslideAcc (v : Reg) (a : Reg) (n : BitVec 2) (s : BitVec 1) (u : BitVec 2) (q : BitVec 3) (t : BitVec 4) : Statement (.mslideAcc v a n s u q t) := by
  show 2684354564 + v.toNat * 2097152 + a.toNat * 65536 + n.toNat * 16384 + s.toNat * 8192 + u.toNat * 2048 + q.toNat * 256 + t.toNat * 16 < 4294967296
  omega
theorem mzero (n : BitVec 2) (a : Reg) (b : Reg) : Statement (.mzero n a b) := by
  show 2684354805 + n.toNat * 2097152 + a.toNat * 65536 + b.toNat * 2048 < 4294967296
  omega
theorem mread (v : Reg) (a : Reg) (n : BitVec 2) (s : BitVec 1) (q : BitVec 2) (r : BitVec 3) (t : BitVec 4) : Statement (.mread v a n s q r t) := by
  show 2684354566 + v.toNat * 2097152 + a.toNat * 65536 + n.toNat * 16384 + s.toNat * 8192 + q.toNat * 2048 + r.toNat * 256 + t.toNat * 16 < 4294967296
  omega
theorem mscale (q : BitVec 3) (a : Reg) : Statement (.mscale q a) := by
  show 2684354807 + q.toNat * 2097152 + a.toNat * 65536 < 4294967296
  omega
theorem acopy (d : Reg) (a : Reg) (b : Reg) (k : BitVec 4) : Statement (.acopy d a b k) := by
  show 2952790016 + d.toNat * 2097152 + a.toNat * 65536 + b.toNat * 2048 + k.toNat < 4294967296
  omega
theorem acopyt (d : Reg) (a : Reg) (b : Reg) (k : BitVec 4) : Statement (.acopyt d a b k) := by
  show 2952790048 + d.toNat * 2097152 + a.toNat * 65536 + b.toNat * 2048 + k.toNat < 4294967296
  omega
theorem evwait (d : Reg) (k : BitVec 4) : Statement (.evwait d k) := by
  show 2952790080 + d.toNat * 2097152 + k.toNat < 4294967296
  omega
theorem evclr (d : Reg) (k : BitVec 4) : Statement (.evclr d k) := by
  show 2952790112 + d.toNat * 2097152 + k.toNat < 4294967296
  omega
theorem uiret : Statement .uiret := by
  show 2952790144 < 4294967296
  decide
theorem icinv (a : Reg) (b : Reg) : Statement (.icinv a b) := by
  show 2952790176 + a.toNat * 65536 + b.toNat * 2048 < 4294967296
  omega
theorem panpost (d : Reg) (a : Reg) (b : Reg) : Statement (.panpost d a b) := by
  show 3019898880 + d.toNat * 2097152 + a.toNat * 65536 + b.toNat * 2048 < 4294967296
  omega
theorem panget (d : Reg) (a : Reg) (b : Reg) : Statement (.panget d a b) := by
  show 3019898912 + d.toNat * 2097152 + a.toNat * 65536 + b.toNat * 2048 < 4294967296
  omega
theorem pandone (d : Reg) : Statement (.pandone d) := by
  show 3019898944 + d.toNat * 2097152 < 4294967296
  omega
theorem wmpub (a : Reg) (b : Reg) : Statement (.wmpub a b) := by
  show 3019898976 + a.toNat * 65536 + b.toNat * 2048 < 4294967296
  omega
theorem depset (a : Reg) (b : Reg) : Statement (.depset a b) := by
  show 3019899008 + a.toNat * 65536 + b.toNat * 2048 < 4294967296
  omega
theorem depdec (a : Reg) : Statement (.depdec a) := by
  show 3019899040 + a.toNat * 65536 < 4294967296
  omega
theorem qsend (d : Reg) (a : Reg) (b : Reg) : Statement (.qsend d a b) := by
  show 3019899072 + d.toNat * 2097152 + a.toNat * 65536 + b.toNat * 2048 < 4294967296
  omega
theorem qsendNb (d : Reg) (a : Reg) (b : Reg) : Statement (.qsendNb d a b) := by
  show 3019899073 + d.toNat * 2097152 + a.toNat * 65536 + b.toNat * 2048 < 4294967296
  omega
theorem qsendA (d : Reg) (a : Reg) (b : Reg) : Statement (.qsendA d a b) := by
  show 3019899074 + d.toNat * 2097152 + a.toNat * 65536 + b.toNat * 2048 < 4294967296
  omega
theorem qtake (d : Reg) (a : Reg) (b : Reg) : Statement (.qtake d a b) := by
  show 3019899104 + d.toNat * 2097152 + a.toNat * 65536 + b.toNat * 2048 < 4294967296
  omega
theorem gjoin (d : Reg) (a : Reg) : Statement (.gjoin d a) := by
  show 3087007744 + d.toNat * 2097152 + a.toNat * 65536 < 4294967296
  omega
theorem gleave (d : Reg) (a : Reg) : Statement (.gleave d a) := by
  show 3087007776 + d.toNat * 2097152 + a.toNat * 65536 < 4294967296
  omega
theorem bara (d : Reg) (a : Reg) : Statement (.bara d a) := by
  show 3087007808 + d.toNat * 2097152 + a.toNat * 65536 < 4294967296
  omega
theorem barw (d : Reg) (a : Reg) (n : Reg) : Statement (.barw d a n) := by
  show 3087007840 + d.toNat * 2097152 + a.toNat * 65536 + n.toNat * 2048 < 4294967296
  omega
theorem barinfo (d : Reg) (a : Reg) (b : Reg) : Statement (.barinfo d a b) := by
  show 3087007872 + d.toNat * 2097152 + a.toNat * 65536 + b.toNat * 2048 < 4294967296
  omega
theorem rld (d : Reg) (a : Reg) (s : BitVec 2) : Statement (.rld d a s) := by
  show 3154116608 + d.toNat * 2097152 + a.toNat * 65536 + s.toNat < 4294967296
  omega
theorem rst (d : Reg) (a : Reg) (s : BitVec 2) : Statement (.rst d a s) := by
  show 3154116640 + d.toNat * 2097152 + a.toNat * 65536 + s.toNat < 4294967296
  omega
theorem ramo (d : Reg) (a : Reg) (b : Reg) (o : BitVec 3) : Statement (.ramo d a b o) := by
  show 3154116672 + d.toNat * 2097152 + a.toNat * 65536 + b.toNat * 2048 + o.toNat * 4 < 4294967296
  omega
theorem rred (v : Reg) (a : Reg) (q : BitVec 3) (k : BitVec 3) : Statement (.rred v a q k) := by
  show 3154116704 + v.toNat * 2097152 + a.toNat * 65536 + q.toNat * 2048 + k.toNat * 4 < 4294967296
  omega
theorem ecall : Statement .ecall := by
  show 4227858432 < 4294967296
  decide
theorem hcall : Statement .hcall := by
  show 4227858464 < 4294967296
  decide
theorem trap (a : Reg) : Statement (.trap a) := by
  show 4227858496 + a.toNat * 65536 < 4294967296
  omega
theorem iret : Statement .iret := by
  show 4227858528 < 4294967296
  decide
theorem ctxsave : Statement .ctxsave := by
  show 4227858560 < 4294967296
  decide
theorem ctxload (a : Reg) : Statement (.ctxload a) := by
  show 4227858592 + a.toNat * 65536 < 4294967296
  omega
theorem halt (a : Reg) : Statement (.halt a) := by
  show 4227858624 + a.toNat * 65536 < 4294967296
  omega
theorem brk : Statement .brk := by
  show 4227858656 < 4294967296
  decide
theorem tlbinv (a : Reg) (b : Reg) : Statement (.tlbinv a b) := by
  show 4227858688 + a.toNat * 65536 + b.toNat * 2048 < 4294967296
  omega
theorem framegive (d : Reg) (a : Reg) (b : Reg) : Statement (.framegive d a b) := by
  show 4227858720 + d.toNat * 2097152 + a.toNat * 65536 + b.toNat * 2048 < 4294967296
  omega
theorem keyload (d : Reg) (a : Reg) (b : Reg) : Statement (.keyload d a b) := by
  show 4227858752 + d.toNat * 2097152 + a.toNat * 65536 + b.toNat * 2048 < 4294967296
  omega
theorem tmark (a : Reg) (b : Reg) : Statement (.tmark a b) := by
  show 4227858784 + a.toNat * 65536 + b.toNat * 2048 < 4294967296
  omega
theorem moduleReset : Statement .moduleReset := by
  show 0 < 4294967296
  decide
theorem measExtend (image : List Byte) : Statement (.measExtend image) := by
  show 0 < 4294967296
  decide
theorem chunkCommit (agent : Nat) : Statement (.chunkCommit agent) := by
  show 0 < 4294967296
  decide
theorem chunkReservation (agent : Nat) : Statement (.chunkReservation agent) := by
  show 0 < 4294967296
  decide
theorem pass (tid : Nat) : Statement (.pass tid) := by
  show 0 < 4294967296
  decide
theorem capturePass (tid : Nat) : Statement (.capturePass tid) := by
  show 0 < 4294967296
  decide
theorem elementGroupCompletion (tid : Nat) : Statement (.elementGroupCompletion tid) := by
  show 0 < 4294967296
  decide
theorem trapEntry (tid cause : Nat) (addr : Word) : Statement (.trapEntry tid cause addr) := by
  show 0 < 4294967296
  decide
theorem userInterrupt (tid : Nat) : Statement (.userInterrupt tid) := by
  show 0 < 4294967296
  decide
theorem preEmption (tid : Nat) : Statement (.preEmption tid) := by
  show 0 < 4294967296
  decide
theorem wakeDelivery (src dst : Nat) : Statement (.wakeDelivery src dst) := by
  show 0 < 4294967296
  decide
theorem parkCExpiry (tid : Nat) : Statement (.parkCExpiry tid) := by
  show 0 < 4294967296
  decide
theorem yieldExpiry (tid : Nat) : Statement (.yieldExpiry tid) := by
  show 0 < 4294967296
  decide
theorem waitvWake (tid : Nat) : Statement (.waitvWake tid) := by
  show 0 < 4294967296
  decide
theorem barwRelease (tid : Nat) : Statement (.barwRelease tid) := by
  show 0 < 4294967296
  decide
theorem watermarkWaitEnd (tid : Nat) : Statement (.watermarkWaitEnd tid) := by
  show 0 < 4294967296
  decide
theorem pangetRemoteWait (tid : Nat) : Statement (.pangetRemoteWait tid) := by
  show 0 < 4294967296
  decide
theorem randTimeout (tid : Nat) : Statement (.randTimeout tid) := by
  show 0 < 4294967296
  decide
theorem powerGating (core : Nat) : Statement (.powerGating core) := by
  show 0 < 4294967296
  decide
theorem gatingExit (core : Nat) : Statement (.gatingExit core) := by
  show 0 < 4294967296
  decide
theorem frequencyStep (core mhz : Nat) : Statement (.frequencyStep core mhz) := by
  show 0 < 4294967296
  decide
theorem relockEnd (core : Nat) : Statement (.relockEnd core) := by
  show 0 < 4294967296
  decide
theorem temperatureReading (core degC : Nat) : Statement (.temperatureReading core degC) := by
  show 0 < 4294967296
  decide
theorem powerMeasurement (watts : Nat) : Statement (.powerMeasurement watts) := by
  show 0 < 4294967296
  decide
theorem tcritTimeout (core : Nat) : Statement (.tcritTimeout core) := by
  show 0 < 4294967296
  decide
theorem vminTimeout (rail : Nat) : Statement (.vminTimeout rail) := by
  show 0 < 4294967296
  decide
theorem processMonitor (core degr : Nat) : Statement (.processMonitor core degr) := by
  show 0 < 4294967296
  decide
theorem watchdogExpiry (cls inst : Nat) : Statement (.watchdogExpiry cls inst) := by
  show 0 < 4294967296
  decide
theorem dump (tid : Nat) : Statement (.dump tid) := by
  show 0 < 4294967296
  decide
theorem engineOperation (tid k : Nat) : Statement (.engineOperation tid k) := by
  show 0 < 4294967296
  decide
theorem engineCompletion (tid k : Nat) : Statement (.engineCompletion tid k) := by
  show 0 < 4294967296
  decide
theorem tileLoadCompletion (core slot : Nat) : Statement (.tileLoadCompletion core slot) := by
  show 0 < 4294967296
  decide
theorem barrierArrival (tid : Nat) : Statement (.barrierArrival tid) := by
  show 0 < 4294967296
  decide
theorem rldRequest (smod svf : Nat) (offset : Word) (size : Nat) : Statement (.rldRequest smod svf offset size) := by
  show 0 < 4294967296
  decide
theorem rstPacket (smod svf : Nat) (offset : Word) (size : Nat) (data : Word) : Statement (.rstPacket smod svf offset size data) := by
  show 0 < 4294967296
  decide
theorem ramoRequest (smod svf : Nat) (offset : Word) (op : Nat) (operand expected : Word) : Statement (.ramoRequest smod svf offset op operand expected) := by
  show 0 < 4294967296
  decide
theorem rredPacket (smod svf : Nat) (offset : Word) (ty : Nat) (scale : BitVec 32) (mask : BitVec 16) (data : List (BitVec 32)) : Statement (.rredPacket smod svf offset ty scale mask data) := by
  show 0 < 4294967296
  decide
theorem remoteResponse (tid cause : Nat) (value : Word) : Statement (.remoteResponse tid cause value) := by
  show 0 < 4294967296
  decide
theorem remoteAcknowledgement (tid cause : Nat) (addr : Word) : Statement (.remoteAcknowledgement tid cause addr) := by
  show 0 < 4294967296
  decide
theorem remoteTimeout (tid : Nat) (addr : Word) : Statement (.remoteTimeout tid addr) := by
  show 0 < 4294967296
  decide
theorem remoteItem (smod svf queue : Nat) (lo hi : Word) : Statement (.remoteItem smod svf queue lo hi) := by
  show 0 < 4294967296
  decide
theorem itemAcceptance (tid : Nat) (accepted : Bool) : Statement (.itemAcceptance tid accepted) := by
  show 0 < 4294967296
  decide
theorem abortNotice (smod ident : Nat) : Statement (.abortNotice smod ident) := by
  show 0 < 4294967296
  decide
theorem resetNotice (smod svf : Nat) : Statement (.resetNotice smod svf) := by
  show 0 < 4294967296
  decide
theorem hostWrite (vf : Nat) (pa : Nat) (data : List Byte) : Statement (.hostWrite vf pa data) := by
  show 0 < 4294967296
  decide
theorem cxlMemAccess (write : Bool) (pa : Nat) (data : List Byte) : Statement (.cxlMemAccess write pa data) := by
  show 0 < 4294967296
  decide
theorem dbhi (vf : Nat) (value : Word) : Statement (.dbhi vf value) := by
  show 0 < 4294967296
  decide
theorem functionLevelReset (vf : Nat) : Statement (.functionLevelReset vf) := by
  show 0 < 4294967296
  decide
theorem vfreset (value : Word) : Statement (.vfreset value) := by
  show 0 < 4294967296
  decide
theorem preempt (steward : Nat) (value : Word) : Statement (.preempt steward value) := by
  show 0 < 4294967296
  decide
theorem vfPreempt (vf : Nat) (value : Word) : Statement (.vfPreempt vf value) := by
  show 0 < 4294967296
  decide
theorem sramsize (die : Nat) (value : Word) : Statement (.sramsize die value) := by
  show 0 < 4294967296
  decide
theorem flim (core : Nat) (value : Word) : Statement (.flim core value) := by
  show 0 < 4294967296
  decide
theorem ownerTableWrite (off : Nat) (value : Byte) : Statement (.ownerTableWrite off value) := by
  show 0 < 4294967296
  decide
theorem fstatAccess (tid : Nat) : Statement (.fstatAccess tid) := by
  show 0 < 4294967296
  decide
theorem capAreaWrite (tid : Nat) (size : Bool) (value : Word) : Statement (.capAreaWrite tid size value) := by
  show 0 < 4294967296
  decide
theorem vrsWrite (tid : Nat) (high : Bool) (value : Word) : Statement (.vrsWrite tid high value) := by
  show 0 < 4294967296
  decide
theorem chklimWrite (tid : Nat) (value : Word) : Statement (.chklimWrite tid value) := by
  show 0 < 4294967296
  decide
theorem evfWrite (tid : Nat) (value : Word) : Statement (.evfWrite tid value) := by
  show 0 < 4294967296
  decide
theorem ctxbaseWrite (tid : Nat) (value : Word) : Statement (.ctxbaseWrite tid value) := by
  show 0 < 4294967296
  decide
theorem laneCounterRead (tid : Nat) (index : Nat) : Statement (.laneCounterRead tid index) := by
  show 0 < 4294967296
  decide
theorem traceSample (tid : Nat) : Statement (.traceSample tid) := by
  show 0 < 4294967296
  decide
theorem registerWrite (pa : Nat) (value : Word) : Statement (.registerWrite pa value) := by
  show 0 < 4294967296
  decide
theorem matrixStepCompletion (core : Nat) (mismatch : Bool) : Statement (.matrixStepCompletion core mismatch) := by
  show 0 < 4294967296
  decide
theorem reservationReturn (queue : Nat) (reclaimed : Bool) : Statement (.reservationReturn queue reclaimed) := by
  show 0 < 4294967296
  decide
theorem entropyHealthChange (healthy : Bool) (value : Word) : Statement (.entropyHealthChange healthy value) := by
  show 0 < 4294967296
  decide

end Sys2Proof.Laws.Encodes
end

