-- ==== Sys2Proof/Tests/Slice0.lean ====
section
/-! SUPPORT. Tests/Slice0.lean: the author's tests: words written out from the spec's encoding tables, ill-formed terms refused, single
steps on small states, and for every statement with hypotheses a state that meets them. -/

set_option Elab.async false

namespace Sys2Proof.Tests

open Sys2Proof Sys2Proof.Machine

/-- Every word decodes to its instruction. -/
def reads (l : List (Nat × Instr)) : Bool := l.all fun p => decide ((decode p.1).toOption = some p.2) && decide (encode p.2 = p.1)

/-- Every term is ill formed, and its word is refused. -/
def refuses (l : List Instr) : Bool := l.all fun i => !i.wf && (decode (encode i)).toOption.isNone

/-- Words of the op rows, from their encodings in the tables of the spec (R29 to R34, R53 to R61). -/
theorem test_decode_op : reads [
    (0b00000100001000100001100000000000, .add 1 2 3),
    (0b00000100001000100001100000100000, .sub 1 2 3),
    (0b00000100001000100001100001000000, .mul 1 2 3),
    (0b00000100001000100001100001100000, .mulh 1 2 3),
    (0b00000100001000100001100010000000, .mulhu 1 2 3),
    (0b00000100001000100001100010100000, .div 1 2 3),
    (0b00000100001000100001100011000000, .divu 1 2 3),
    (0b00000100001000100001100011100000, .rem 1 2 3),
    (0b00000100001000100001100100000000, .remu 1 2 3),
    (0b00000100001000100001100100100000, .and 1 2 3),
    (0b00000100001000100001100101000000, .or 1 2 3),
    (0b00000100001000100001100101100000, .xor 1 2 3),
    (0b00000100001000100001100110000000, .andn 1 2 3),
    (0b00000100001000100001100110100000, .orn 1 2 3),
    (0b00000100001000100001100111000000, .sll 1 2 3),
    (0b00000100001000100001100111100000, .srl 1 2 3),
    (0b00000100001000100001101000000000, .sra 1 2 3),
    (0b00000100001000100001101000100000, .ror 1 2 3),
    (0b00000100001000100001101001000000, .min 1 2 3),
    (0b00000100001000100001101001100000, .max 1 2 3),
    (0b00000100001000100001101010000000, .minu 1 2 3),
    (0b00000100001000100001101010100000, .maxu 1 2 3),
    (0b00000100001000100001101011000000, .slt 1 2 3),
    (0b00000100001000100001101011100000, .sltu 1 2 3)] = true := by decide +kernel

/-- Words of the imm rows, from their encodings in the tables of the spec (R29 to R34, R53 to R61). -/
theorem test_decode_imm : reads [
    (0b00001000001000100000000000000111, .addi 1 2 7),
    (0b00001100001000100000000000000111, .andi 1 2 7),
    (0b00010000001000100000000000000111, .ori 1 2 7),
    (0b00010100001000100000000000000111, .xori 1 2 7),
    (0b00011000001000100000000000000101, .slli 1 2 5),
    (0b00011000001000100100000000000101, .srli 1 2 5),
    (0b00011000001000101000000000000101, .srai 1 2 5),
    (0b00011100001000100000000000000111, .slti 1 2 7),
    (0b00011100001000101000000000000111, .sltiu 1 2 7),
    (0b00100000001000000000000000000111, .lui 1 7),
    (0b00100100001000000000000000000111, .addpc 1 7)] = true := by decide +kernel

/-- Words of the bit rows, from their encodings in the tables of the spec (R29 to R34, R53 to R61). -/
theorem test_decode_bit : reads [
    (0b00101000001000100000000000000000, .clz 1 2),
    (0b00101000001000100000000000100000, .ctz 1 2),
    (0b00101000001000100000000001000000, .popc 1 2),
    (0b00101000001000100001100001100000, .sext 1 2 3),
    (0b00101000001000100001100010000000, .zext 1 2 3),
    (0b00101000001000100000000010100000, .bswap 1 2),
    (0b00101000010000100001100011000000, .lea 2 2 3),
    (0b00101000001000100001100011100000, .insh 1 2 3),
    (0b00101000001000100001100100000000, .csel 1 2 3)] = true := by decide +kernel

/-- Words of the branch rows, from their encodings in the tables of the spec (R29 to R34, R53 to R61). -/
theorem test_decode_branch : reads [
    (0b00110000010000110000000000000110, .beq 2 3 6),
    (0b00110100010000110000000000000110, .bne 2 3 6),
    (0b00111000010000110000000000000110, .blt 2 3 6),
    (0b00111100010000110000000000000110, .bge 2 3 6),
    (0b01000000010000110000000000000110, .bltu 2 3 6),
    (0b01000100010000110000000000000110, .bgeu 2 3 6),
    (0b01001000001000000000000000000110, .jal 1 6),
    (0b01001100001000100000000000000111, .jalr 1 2 7),
    (0b01010000001000100001100000000000, .jtab 1 2 3),
    (0b01010100001000100001100000000100, .strip 1 2 3 4),
    (0b01011000101000100000000000000110, .bev 5 2 6)] = true := by decide +kernel

/-- Words of the mem rows, from their encodings in the tables of the spec (R29 to R34, R53 to R61). -/
theorem test_decode_mem : reads [
    (0b01100000001000100000000000111101, .ld 1 2 7 2 1),
    (0b01100100001000100000000000111100, .st 1 2 7 2),
    (0b01101000001000100001100000000110, .ldx 1 2 3 1 2),
    (0b01101000001000100001100000100010, .stx 1 2 3 2),
    (0b01101000000000100000000001000000, .pref 2)] = true := by decide +kernel

/-- Words of the major30 rows, from their encodings in the tables of the spec (R29 to R34, R53 to R61). -/
theorem test_decode_major30 : reads [
    (0b11000000001000000000000000000001, .csrrd 1 1),
    (0b11000000001000100001000000000001, .csrwr 1 2 1),
    (0b11000000001000100010000000000001, .csrset 1 2 1),
    (0b11000000001000100011000000000001, .csrclr 1 2 1),
    (0b11000000001000000100000000000000, .rand 1)] = true := by decide +kernel

/-- Words of the major31 rows, from their encodings in the tables of the spec (R29 to R34, R53 to R61). -/
theorem test_decode_major31 : reads [
    (0b11000100001000000000000000000000, .park 1),
    (0b11000100000000100000000000100000, .parkC 2),
    (0b11000100001000100001100001000000, .wake 1 2 3),
    (0b11000100000000000000000001100000, .nap),
    (0b11000100000000000000000010000000, .yield)] = true := by decide +kernel

/-- Words of the order rows, from their encodings in the tables of the spec (R29 to R34, R53 to R61). -/
theorem test_decode_order : reads [
    (0b01110000000000000000000000000001, .fence 1),
    (0b01110000000000000000000000100000, .chunkend),
    (0b01110000001000100000000001000000, .chunklim 1 2),
    (0b01110000000000100001100001100000, .waitv 2 3),
    (0b01110000001000100000000010001010, .ldaq 1 2 1 2),
    (0b01110000001000100000000010101010, .strl 1 2 1 2)] = true := by decide +kernel

/-- Words of the amo rows, from their encodings in the tables of the spec (R29 to R34, R53 to R61). -/
theorem test_decode_amo : reads [
    (0b01101100001000100001100000001010, .amoadd 1 2 3 1 2),
    (0b01101100001000100001100000101010, .amoand 1 2 3 1 2),
    (0b01101100001000100001100001001010, .amoor 1 2 3 1 2),
    (0b01101100001000100001100001101010, .amoxor 1 2 3 1 2),
    (0b01101100001000100001100010001010, .amomin 1 2 3 1 2),
    (0b01101100001000100001100010101010, .amomax 1 2 3 1 2),
    (0b01101100001000100001100011001010, .amominu 1 2 3 1 2),
    (0b01101100001000100001100011101010, .amomaxu 1 2 3 1 2),
    (0b01101100001000100001100100001011, .amoswap 1 2 3 1 0 3),
    (0b01101100001000100001100100101011, .amocas 1 2 3 1 0 3),
    (0b01101100001000100001100101001010, .amofadd 1 2 3 1)] = true := by decide +kernel

/-- Words of the vctl rows, from their encodings in the tables of the spec (R29 to R34, R53 to R61). -/
theorem test_decode_vctl : reads [
    (0b10000000001000100000000011110000, .vsetl 1 2),
    (0b10000000100000000000000011110001, .force 4),
    (0b10000000100000000000000011110010, .vmat 4),
    (0b10000000100000000000000011110011, .vdrop 4),
    (0b10000000100000100000000010000100, .vbcast 4 2 8),
    (0b10000000100000100001100011110101, .vget 4 2 3),
    (0b10000000100000100001100011110110, .vins 4 2 3),
    (0b10000000100000000001100011110111, .vconf 4 3),
    (0b10000000100001010001100011111000, .vcompact 4 5 3),
    (0b10000000001001010000000011111001, .mcnt 1 5),
    (0b10000000001001010000000011111010, .mfirst 1 5),
    (0b10000000101000100010001111111011, .mlogLogic 5 2 4 3),
    (0b10000000101010000010000011111011, .mlogFromVector 5 4),
    (0b10000000100100100000000011111011, .mlogToVector 4 2)] = true := by decide +kernel

/-- Words of the vload rows, from their encodings in the tables of the spec (R29 to R34, R53 to R61). -/
theorem test_decode_vload : reads [
    (0b10000100100000100000000001000000, .vld 4 2 4),
    (0b10000100100000100000000001000001, .vldFf 4 2 4),
    (0b10000100101000100000000011100010, .vldM 5 2),
    (0b10000100100000100001100001000011, .vlds 4 2 3 4),
    (0b10000100100000100001100001000100, .vldx 4 2 3 4),
    (0b10000100100000100001100001000101, .vldseg 4 2 3 4),
    (0b10000100100000100001100001000110, .vldt 4 2 3 4)] = true := by decide +kernel

/-- Words of the vstore rows, from their encodings in the tables of the spec (R29 to R34, R53 to R61). -/
theorem test_decode_vstore : reads [
    (0b10001000100000100000010101000000, .vst 4 2 5 4),
    (0b10001000100000100001110101000001, .vsts 4 2 3 5 4),
    (0b10001000100000100001110101000010, .vstx 4 2 3 5 4),
    (0b10001000100000100001110101000011, .vstseg 4 2 3 5 4),
    (0b10001000100000100001110110010100, .vstt 4 2 3 5 9),
    (0b10001000100000100001110101001000, .vscrAdd 4 2 3 5 4),
    (0b10001000100000100001110101001001, .vscrMin 4 2 3 5 4),
    (0b10001000100000100001110101001010, .vscrMax 4 2 3 5 4),
    (0b10001000100000100001110101001011, .vscrAnd 4 2 3 5 4),
    (0b10001000100000100001110101001100, .vscrOr 4 2 3 5 4),
    (0b10001000100000100001110101001101, .vscrXor 4 2 3 5 4)] = true := by decide +kernel

/-- Words of the vred rows, from their encodings in the tables of the spec (R29 to R34, R53 to R61). -/
theorem test_decode_vred : reads [
    (0b10001100100000010000010101000000, .vredAdd 4 1 5 4),
    (0b10001100100000010000010101000001, .vredMin 4 1 5 4),
    (0b10001100100000010000010101000010, .vredMax 4 1 5 4),
    (0b10001100100000010000010101000011, .vredAnd 4 1 5 4),
    (0b10001100100000010000010101000100, .vredOr 4 1 5 4),
    (0b10001100100000010000010101000101, .vredXor 4 1 5 4),
    (0b10001100100000010000010101001000, .vrediMin 4 1 5 4),
    (0b10001100100000010000010101001001, .vrediMax 4 1 5 4)] = true := by decide +kernel

/-- Words of the weave rows, from their encodings in the tables of the spec (R29 to R34, R53 to R61). -/
theorem test_decode_weave : reads [
    (0b10010000000000000000000000000110, .weave 6)] = true := by decide +kernel

/-- Words of the matrix rows, from their encodings in the tables of the spec (R29 to R34, R53 to R61). -/
theorem test_decode_matrix : reads [
    (0b10100000000000100000000001000000, .mldw 0 2 4),
    (0b10100000100000101100010110010001, .mrow 4 2 3 0 0 5 9),
    (0b10100000100000101100010110010010, .mrowAcc 4 2 3 0 0 5 9),
    (0b10100000100000101100010110010011, .mslide 4 2 3 0 0 5 9),
    (0b10100000100000101100010110010100, .mslideAcc 4 2 3 0 0 5 9),
    (0b10100000011000100001100011110101, .mzero 3 2 3),
    (0b10100000100000101100101010000110, .mread 4 2 3 0 1 2 8),
    (0b10100000001000100000000011110111, .mscale 1 2)] = true := by decide +kernel

/-- Words of the engine rows, from their encodings in the tables of the spec (R29 to R34, R53 to R61). -/
theorem test_decode_engine : reads [
    (0b10110000001000100001100000000101, .acopy 1 2 3 5),
    (0b10110000001000100001100000100101, .acopyt 1 2 3 5),
    (0b10110000001000000000000001000101, .evwait 1 5),
    (0b10110000001000000000000001100101, .evclr 1 5),
    (0b10110000000000000000000010000000, .uiret),
    (0b10110000000000100001100010100000, .icinv 2 3)] = true := by decide +kernel

/-- Words of the major2d rows, from their encodings in the tables of the spec (R29 to R34, R53 to R61). -/
theorem test_decode_major2d : reads [
    (0b10110100001000100001100000000000, .panpost 1 2 3),
    (0b10110100111000100001100000100000, .panget 7 2 3),
    (0b10110100001000000000000001000000, .pandone 1),
    (0b10110100000000100001100001100000, .wmpub 2 3),
    (0b10110100000000100001100010000000, .depset 2 3),
    (0b10110100000000100000000010100000, .depdec 2),
    (0b10110100001000100001100011000000, .qsend 1 2 3),
    (0b10110100001000100001100011000001, .qsendNb 1 2 3),
    (0b10110100001000100001100011000010, .qsendA 1 2 3),
    (0b10110100001000100001100011100000, .qtake 1 2 3)] = true := by decide +kernel

/-- Words of the major2e rows, from their encodings in the tables of the spec (R29 to R34, R53 to R61). -/
theorem test_decode_major2e : reads [
    (0b10111000001000100000000000000000, .gjoin 1 2),
    (0b10111000001000100000000000100000, .gleave 1 2),
    (0b10111000001000100000000001000000, .bara 1 2),
    (0b10111000001000100001100001100000, .barw 1 2 3),
    (0b10111000001000100001100010000000, .barinfo 1 2 3)] = true := by decide +kernel

/-- Words of the major2f rows, from their encodings in the tables of the spec (R29 to R34, R53 to R61). -/
theorem test_decode_major2f : reads [
    (0b10111100001000100000000000000010, .rld 1 2 2),
    (0b10111100001000100000000000100010, .rst 1 2 2),
    (0b10111100001000100001100001011000, .ramo 1 2 3 6),
    (0b10111100100000100000100001110100, .rred 4 2 1 5)] = true := by decide +kernel

/-- Words of the major3f rows, from their encodings in the tables of the spec (R29 to R34, R53 to R61). -/
theorem test_decode_major3f : reads [
    (0b11111100000000000000000000000000, .ecall),
    (0b11111100000000000000000000100000, .hcall),
    (0b11111100000000100000000001000000, .trap 2),
    (0b11111100000000000000000001100000, .iret),
    (0b11111100000000000000000010000000, .ctxsave),
    (0b11111100000000100000000010100000, .ctxload 2),
    (0b11111100000000100000000011000000, .halt 2),
    (0b11111100000000000000000011100000, .brk),
    (0b11111100000000100001100100000000, .tlbinv 2 3),
    (0b11111100001000100001100100100000, .framegive 1 2 3),
    (0b11111100001000100001100101000000, .keyload 1 2 3),
    (0b11111100000000100001100101100000, .tmark 2 3)] = true := by decide +kernel

/-- R34, R53: a word of major 0 or of an unassigned selector is no instruction. -/
theorem test_decode_unassigned : ([0, 0x04000300, 0x0000FFFF, 0xFFFFFFFF].all fun w => (decode w).toOption.isNone) = true := by decide +kernel

/-- R32, R45, R60, R61: one ill-formed term for each check. -/
theorem test_wf_scalar : refuses [.ld 0 0 0 3 1, .ldx 0 0 0 1 3, .ldaq 0 0 3 0, .strl 0 0 3 0, .amoadd 0 0 0 0 1, .amoand 0 0 0 0 1,
    .amoor 0 0 0 0 1, .amoxor 0 0 0 0 1, .amomin 0 0 0 0 1, .amomax 0 0 0 0 1, .amominu 0 0 0 0 1, .amomaxu 0 0 0 0 1,
    .amoswap 1 0 0 0 1 3, .amoswap 0 0 0 0 1 2, .amocas 0 0 1 0 1 3, .amocas 0 0 0 0 0 1, .strip 0 1 1 0, .strip 0 0 0 0,
    .strip 1 0 1 0, .bev 16 0 0, .bev 0 4 0] = true := by decide +kernel

/-- The same for the vector and matrix families. -/
theorem test_wf_vector : refuses [.vbcast 0 0 9, .mlogLogic 0 1 1 1, .mlogFromVector 0 1, .mlogToVector 1 0, .vld 0 0 15, .vldFf 0 0 14,
    .vldM 0 1, .vlds 0 0 0 13, .vldx 0 0 0 14, .vldseg 0 0 1 0, .vldseg 30 0 3 0, .vldt 0 0 0 13, .vst 0 0 0 15, .vsts 0 0 0 0 13,
    .vstx 0 0 0 0 13, .vstseg 0 0 9 0 0, .vstt 0 0 0 0 14, .vscrAdd 0 0 0 0 9, .vscrMin 0 0 0 0 14, .vscrMax 0 0 0 0 9,
    .vscrAnd 0 0 0 0 8, .vscrOr 0 0 0 0 8, .vscrXor 0 0 0 0 8, .vredAdd 0 0 0 13, .vredMin 0 0 0 15, .vredMax 0 0 0 13,
    .vredAnd 0 0 0 8, .vredOr 0 0 0 8, .vredXor 0 0 0 8, .vrediMin 0 0 0 0, .vrediMax 0 31 0 0, .mldw 0 0 1, .mrow 0 0 0 0 2 0 9,
    .mrowAcc 0 0 0 0 1 0 9, .mslide 0 0 0 0 0 1 0, .mslideAcc 0 0 0 0 0 0 1, .mread 0 0 0 0 0 0 3, .mread 0 0 0 0 0 4 0] = true := by
  decide +kernel

/-- The same for the task families. -/
theorem test_wf_tasks : refuses [.panget 0 0 0, .panget 29 0 0, .pandone 0, .pandone 29, .qsend 0 0 31, .qsendNb 0 0 31, .qsendA 0 0 31,
    .qtake 0 0 0, .qtake 31 0 0] = true := by decide +kernel

/-- A page table (R345): virtual pages 16 and 17 at their own addresses, page 16 for data at every level, page 17 for fetching. -/
def tables : List Host.Cell :=
  [(0, 1), (1, 0x10), (0x1000, 1), (0x1001, 0x20), (0x2000, 1), (0x2001, 0x30), (0x3080, 0xEF), (0x3082, 0x10), (0x3088, 0x77),
   (0x308A, 0x11)]

/-- Core 0, which is not at rest. -/
def core0 : Core := { Core.reset 0 with waits := false }

/-- Thread 0 of compute core 0, RUNNING at a level, its frame owner table above its pages; VF 0 owns the first and last blocks of counters,
slots and groups. -/
def base (lvl : Level) : State :=
  { State.reset with cur := 0, c := core0, mem := tables, dev := [0xF8, 0x100, 0x1F8, 0x200, 0x2F8].map fun o => (0x40000C20000 + o, 0),
                     t := { Thread.reset 0 with run := .running, lvl := lvl, fotbase := 0x40000000 } }

/-- Steward 0 at H, at reset. -/
def steward : State := State.reset

/-- Give registers values. -/
def regs (s : State) (l : List (Reg × Word)) : State := l.foldl (fun s e => wr s e.1 e.2) s

/-- Put little-endian bytes in memory. -/
def put (s : State) (k n v : Nat) : State := pokeAll s (keyed k (leBytes n v))

/-- The next state of an instruction, or the state itself. -/
def after (i : Instr) (s : State) : State :=
  match exec i s with
  | .next t => t
  | _ => s

/-- The leaf of page 16. -/
def leaf16 : Option Leaf3 := some { pos := some 0x3080, entry := 0x1000EF, bits := 16, fot := none }

/-- R107, R108: a difference below zero wraps; a divisor of zero raises DZ; a destination that is a source. -/
theorem test_alu : rd (after (.sub 1 1 2) (regs (base .u) [(1, 3), (2, 5)])) 1 = 0xFFFFFFFFFFFFFFFE ∧
    rd (after (.div 0 1 2) (regs (base .u) [(1, 3)])) 0 = 0 ∧
    (after (.divu 3 1 2) (regs (base .u) [(1, 3)])).t.a.fstat = 2 ∧
    rd (after (.rem 3 1 2) (regs (base .u) [(1, 0x8000000000000000), (2, 0xFFFFFFFFFFFFFFFF)])) 3 = 0 := by decide +kernel

/-- R114: the field that INSH leaves alone, and a sign extension from bit 31. -/
theorem test_bits : rd (after (.insh 1 2 3) (regs (base .u) [(1, 0xFFFF), (2, 0), (3, 0x404)])) 1 = 0xFF0F ∧
    rd (after (.sext 1 2 31) (regs (base .u) [(2, 0x80000000)])) 1 = 0xFFFFFFFF80000000 := by decide +kernel

/-- R115, R116: a branch backward; a link register that is the base. -/
theorem test_branch : (after (.beq 1 2 0xFFFE) { base .u with t := { (base .u).t with a := { (base .u).t.a with pc := 0x110010 } } }).t.a.pc = 0x110008 ∧
    (after (.jalr 1 1 4) (regs (base .u) [(1, 0x110000)])).t.a.pc = 0x110004 := by decide +kernel

/-- R118: a byte store and a sign-extended byte load of the same place. -/
theorem test_memory : rd (after (.ld 3 1 0 0 0) (after (.st 2 1 0 0) (regs (base .u) [(1, 0x100000), (2, 0x180)]))) 3 = 0xFFFFFFFFFFFFFF80 ∧
    rd (after (.amomin 3 1 2 0 2) (regs (put (base .u) 0x100000 4 5) [(1, 0x100000), (2, 0xFFFFFFFF)])) 3 = 5 := by decide +kernel

/-- R385, R387: ECALL from U enters S with the next instruction to resume at. -/
theorem test_ecall : (after .ecall (base .u)).t.lvl = .s ∧ (after .ecall (base .u)).t.trapcause = 11 ∧
    (after .ecall (base .u)).t.trappc = 4 := by decide +kernel

/-- R30, R46: the bytes that withFetchWord places are fetched and executed. -/
theorem test_step : (match step ((State.reset).withFetchWord 32 0x08200005) with
    | .next t => rd t 1 == 5
    | _ => false) = true := by decide +kernel

theorem witness_Divisions : rd (base .u) 2 = 0 ∧ rd (regs (base .u) [(2, 1)]) 2 ≠ 0 := by decide +kernel

theorem witness_ConditionalBranches : (rd (base .u) 1 = rd (base .u) 2) ∧
    (let s := regs (base .u) [(1, 0xFFFFFFFFFFFFFFFF)]
     rd s 1 ≠ rd s 2 ∧ (rd s 1).toInt < (rd s 2).toInt ∧ ¬(rd s 1).toNat < (rd s 2).toNat ∧
     (rd s 2).toInt ≥ (rd s 1).toInt ∧ ¬(rd s 1).toInt ≥ (rd s 2).toInt ∧ (rd s 1).toNat ≥ (rd s 2).toNat) := by decide +kernel

theorem witness_JumpsAndTables :
    (let s := regs (put (base .u) 0x100004 4 8) [(1, 1), (2, 0x100000), (3, 2)]
     (rd s 2 + (0xFFFC : BitVec 16).signExtend 64).toNat % 4 = 0 ∧ (rd s 1 + (0 : BitVec 16).signExtend 64).toNat % 4 ≠ 0 ∧ (rd s 1).toNat < (rd s 3).toNat ∧ (rd s 3).toNat ≤ (rd s 2).toNat ∧
     (rd s 2).toNat % 4 = 0 ∧ (loadNat s (rd s 2 + wd (4 * (rd s 1).toNat)) 4).2.toOption = some 8 ∧
     watched (loadNat s (rd s 2 + wd (4 * (rd s 1).toNat)) 4).1 (rd s 2 + wd (4 * (rd s 1).toNat)) 4 true false = false ∧
     (rd s 2 + (8 : BitVec 32).signExtend 64).toNat % 4 = 0) := by decide +kernel

theorem witness_AlignmentTraps : (rd (regs (base .u) [(1, 0x100001)]) 1 + (0 : BitVec 13).signExtend 64).toNat % 2 ^ (1 : BitVec 2).toNat ≠ 0 ∧
    (rd (regs (base .u) [(1, 0x100008)]) 1).toNat % 16 ≠ 0 := by decide +kernel

/-- A result that is not an error. -/
theorem ok_of {ε α : Type} {e : Except ε α} {v : α} (h : e.toOption = some v) : e = .ok v := by
  cases e <;> simp_all [Except.toOption]

/-- The last doubleword of page 16 can be read, written and exchanged, at U. -/
theorem reaches (kind : Kind) (h : kind = .read ∨ kind = .write ∨ kind = .amo) :
    Reaches (base .u) kind 0x10FFF8 0x10FFF8 leaf16 where
  found := by rcases h with h | h | h <;> subst h <;> exact ok_of (by decide +kernel)
  memory := by decide +kernel
  plain := by rcases h with h | h | h <;> subst h <;> decide +kernel
  free := by decide +kernel
  form := by unfold State.canonical; decide +kernel
  unfenced := by
    intro r h
    have n : (base .u).t.redo.isNone = true := by decide +kernel
    rw [h] at n; cases n
  sound := by intro e p h hp; cases h; cases hp; decide +kernel

/-- The same once the open chunk has closed. -/
theorem reaches_closed : Reaches (commitOpen (base .u)) .amo 0x10FFF8 0x10FFF8 leaf16 where
  found := ok_of (by decide +kernel)
  memory := by decide +kernel
  plain := by decide +kernel
  free := by decide +kernel
  form := by unfold State.canonical; decide +kernel
  unfenced := by
    intro r h
    have n : (commitOpen (base .u)).t.redo.isNone = true := by decide +kernel
    rw [h] at n; cases n
  sound := by intro e p h hp; cases h; cases hp; decide +kernel

theorem witness_LoadsDeliver : (0x10FFF8 : Word).toNat % 2 ^ (3 : BitVec 2).toNat = 0 ∧ Reaches (base .u) .read 0x10FFF8 0x10FFF8 leaf16 ∧
    meetsPoison (base .u) 0x10FFF8 8 = false ∧ watched (base .u) 0x10FFF8 8 true false = false :=
  ⟨by decide, reaches .read (.inl rfl), by decide +kernel, by decide +kernel⟩

theorem witness_StoresWrite : Reaches (base .u) .write 0x10FFF8 0x10FFF8 leaf16 ∧ overlapped (base .u) 0x10FFF8 8 = [] ∧
    watched (base .u) 0x10FFF8 8 false true = false :=
  ⟨reaches .write (.inr (.inl rfl)), by decide +kernel, by decide +kernel⟩

theorem witness_AtomicsAct : Reaches (base .u) .amo 0x10FFF8 0x10FFF8 leaf16 ∧ meetsPoison (base .u) 0x10FFF8 8 = false ∧
    overlapped (base .u) 0x10FFF8 8 = [] ∧ watched (base .u) 0x10FFF8 8 true true = false ∧
    leNat (viewByte (walked (base .u) .amo 0x10FFF8)) 0x10FFF8 8 = (rd (base .u) 1).toNat % 2 ^ 64 ∧
    leNat (viewByte (walked (base .u) .amo 0x10FFF8)) 0x10FFF8 8 ≠ (rd (regs (base .u) [(1, 7)]) 1).toNat % 2 ^ 64 :=
  ⟨reaches .amo (.inr (.inr rfl)), by decide +kernel, by decide +kernel, by decide +kernel, by decide +kernel, by decide +kernel⟩

theorem witness_ScopedAccessesAndWaits :
    (loadNat (base .u) 0x100000 8).2.toOption = some 0 ∧ (commitOpen (modT (base .u) fun t => { t with unacked := 1 })).t.unacked ≠ 0 ∧
    (commitOpen (base .u)).t.unacked = 0 ∧ (storeNat (commitOpen (base .u)) 0x100000 8 0).2.isOk = true ∧
    overlapped (commitOpen (base .u)) 0x100000 8 = [] ∧
    (lookup (commitOpen (base .u)) (who (commitOpen (base .u))) .write 0x100000).toOption.isSome = true ∧
    meetsPoison (commitOpen (base .u)) 0x10FFF8 8 = false ∧ overlapped (commitOpen (base .u)) 0x10FFF8 8 = [] ∧
    leNat (viewByte (walked (commitOpen (base .u)) .amo 0x10FFF8)) 0x10FFF8 8 = 0 ∧
    BitVec.ofNat 64 (leNat (viewByte (walked (base .u) .read 0x10FFF8)) 0x10FFF8 8) = rd (base .u) 1 ∧
    (0 : Word) ≠ rd (regs (base .u) [(1, 1)]) 1 ∧ (∀ d ∈ [(0 : Reg), 30], d.toNat % 2 = 0) := by decide +kernel

theorem witness_FencesAndChunks : (base .u).t.closed = none ∧ (base .u).t.a.chkNext = none ∧
    (lookup (base .u) (who (base .u)) .read 0x100000).toOption.isSome = true ∧
    (lookup (base .u) (who (base .u)) .read 0x200000).toOption.isNone = true := by decide +kernel

theorem witness_CsrInstructions : csrOk (base .u) 0x48 = true ∧ csrTimed 0x48 = false ∧ csrOk (base .u) 0x30 = true ∧ csrTimed 0x30 = true ∧
    csrOk (base .u) 0x20 = true ∧ csrOk (base .h) 0x213 = true ∧ csrGuest (base .h) .write 0x213 = false ∧ (base .u).c.mat = [] ∧
    csrOk (base .s) 0x100 = true ∧ csrGuest (base .s) .set 0x100 = false ∧ (base .u).jmode = 0 := by decide +kernel

theorem witness_RandDraws : (closedAfter (base .u)).jmode = 0 ∧ (closedAfter (base .u)).healthy = true ∧
    (closedAfter { base .u with healthy := false }).healthy = false ∧ (closedAfter (base .u)).t.draw = none ∧ (base .u).t.draw = none ∧
    (let s := modT (base .u) fun t => { t with draw := some 1, ckptOpen := t.a }
     s.t.draw ≠ none ∧ s.t.chunk.idle = true ∧ s.t.ckptOpen.pc = s.t.a.pc ∧ s.jmode = 0) := by decide +kernel

theorem witness_ThreadsWait : (closedAfter (base .u)).t.a.token = false ∧
    (closedAfter (modA (base .u) fun a => { a with token := true })).t.a.token = true ∧
    (base .u).t.parkKept.find? (fun e => e.1 == (base .u).t.a.pc && e.2.1 == (base .u).t.lvl) = none ∧ rd (base .u) 1 = 0 ∧
    rd (regs (base .u) [(1, 1)]) 1 ≠ 0 ∧
    (let s := modT (base .u) fun t => { t with parkKept := [(0, .u, 5)] }
     ((s.t.parkKept.find? fun e => e.1 == s.t.a.pc && e.2.1 == s.t.lvl).map fun e => e.2.2) = some 5) ∧
    isSteward steward.cur = true ∧ (threadAt (base .u) (siblingOf 0)).run ≠ .running ∧ isSteward (base .u).cur = false ∧
    (threadAt (putThread (base .u) 1 { Thread.reset 1 with run := .running }) (siblingOf 0)).run = .running := by decide +kernel

/-- Thread 0 at S with register values for a WAKE, its chunk closed. -/
def wakers : State := closedAfter (regs (base .s) [(1, 336), (2, 1), (3, 320), (4, 0x1000)])

theorem witness_WakeSignals : wakers.jmode = 0 ∧ (base .s).t.chunk.dev = [] ∧ (base .s).t.closed = none ∧ 336 ≤ (rd wakers 1).toNat ∧ (rd wakers 2).toNat < 336 ∧
    (threadAt wakers 1).run = .halted ∧ wakers.t.lvl ≠ .u ∧ rd wakers 0 = 0 ∧ rd wakers 4 ≠ 0 ∧ (rd wakers 4).toNat % 4096 = 0 ∧
    (threadAt wakers 320).run ≠ .halted ∧ (threadAt wakers 320).vfid = wakers.t.vfid ∧ startRefused wakers 1 0x1000 = false ∧
    (threadAt (closedAfter (base .u)) 1).run = .halted ∧ (closedAfter (base .u)).t.lvl = .u ∧
    (threadAt (modT wakers fun t => { t with vfid := 1 }) 320).vfid ≠ (modT wakers fun t => { t with vfid := 1 }).t.vfid := by decide +kernel

/-- A steward's image whose header names H is beyond what a sender at S may start. -/
theorem witness_StartRefused : startRefused
    (closedAfter (put (putThread (base .s) 321 { Thread.reset 321 with fotbase := 0x40000000 }) 0x100008 1 2)) 321 0x100000 = true := by
  decide +kernel

/-- A core at which what arrives acts at once. -/
def up (s : State) (core : Nat) : Bool :=
  let c := coreAt s core
  c.relock.isNone && !c.off && !c.waits && !c.gated

theorem coreUp_of {s : State} {core : Nat} (h : up s core = true) : coreUp s core := by
  simp [up, and_assoc] at h; exact ⟨h.1, h.2.1, h.2.2.1, h.2.2.2⟩

theorem compute : onComputeCore (base .u) := by unfold onComputeCore; decide +kernel

theorem witness_VectorLength : onComputeCore (base .u) := compute

/-- A state whose v1 holds the 16 values 0 to 15 as N32, resident. -/
def withV : State := modA (base .u) fun a =>
  { a with v := a.v.set 1 { val := residentVal 6 ((List.range 16).map wd), dirty := true },
           m := a.m.set 1 { val := residentVal 14 [1, 0, 1], dirty := true } }

/-- A state whose v1 is bound to 16 elements of page 16. -/
def bound : State := after (.vld 1 2 6) (regs (after (.vsetl 0 3) (regs (base .u) [(3, 16)])) [(2, 0x100000)])

theorem witness_BindingsTakeLeafSlots : onComputeCore (base .u) ∧ (base .u).t.a.freeing = none ∧ (base .u).t.a.leaves.length < 8 ∧ (rd (regs (base .u) [(1, 0xFFFFFFF8)]) 1).toNat % tyBytes 7 = 0 ∧
    tyInt (vreg withV.t.a 1).ty = true ∧ (30 : Reg).toNat + (2 : Reg).toNat ≤ 32 ∧
    (let s := regs (put (base .u) 0x100000 16 0x00000001000000010000000100000002) [(1, 0x100100), (2, 0x100000)]
     (rd s 2).toNat % 64 = 0 ∧ (loadNat s (rd s 2) 64).2.toOption = some 0x00000001000000010000000100000002 ∧
     (loadNat s (rd s 2) 64).1.t.a.freeing = none ∧ (loadNat s (rd s 2) 64).1.t.a.leaves.length < 8 ∧
     badStride (shapeOf 0x00000001000000010000000100000002) (tyBytes 6) = none) :=
  ⟨compute, by decide +kernel⟩

theorem witness_ResidentValuesAndMasks : onComputeCore withV ∧ (vreg withV.t.a 1).resident = true ∧
    (vreg withV.t.a 1).len ≤ residentLimit (vreg withV.t.a 1).ty ∧ withV.t.a.vlLen ≤ residentLimit 8 ∧ (vreg withV.t.a 1).pending = false ∧
    (rd (regs withV [(2, 15)]) 2).toNat < (vreg withV.t.a 1).len ∧ (vreg withV.t.a 1).len ≤ (rd (regs withV [(2, 16)]) 2).toNat ∧
    tyInt (vreg withV.t.a 1).ty = true ∧ (vreg withV.t.a 1).len ≤ residentLimit 14 ∧ maskReady withV 1 = true ∧
    (decide (0 < readyLen withV 1) && readyBit withV 1 0) = true ∧ maskReady withV 0 = true ∧
    max (readyLen withV 1) (readyLen withV 0) ≤ residentLimit 14 :=
  ⟨by unfold onComputeCore; decide +kernel, by decide +kernel⟩

/-- The empty mask m2 has no set bit. -/
theorem witness_NoBitSet : ∀ e, (decide (e < readyLen withV 2) && readyBit withV 2 e) = false := by
  intro e
  have h : readyLen withV 2 = 0 := by decide +kernel
  rw [h]; rfl

theorem witness_SinksAndStoresForcePasses : onComputeCore withV ∧ (vreg withV.t.a 1).ty = 6 ∧ (vreg bound.t.a 1).resident = false ∧
    (vreg bound.t.a 1).len ≤ residentLimit (vreg bound.t.a 1).ty ∧ (vreg bound.t.a 1).pending = true ∧
    (allotAll (modA bound fun a => { a with capBase := 0x100000, capSize := 0x4000 }).t.a
      (usedRegions (modA bound fun a => { a with capBase := 0x100000, capSize := 0x4000 }).t.a) [1]).isSome = true ∧
    (rd withV 2).toNat % tyBytes 6 = 0 ∧
    dependents withV.t.a (fun l => l.extent.meets 4096 (extentOf 0x100000 .unit 6 16)) = [] ∧
    (let k : Sink := { kind := .store 0x100000 .unit, srcs := [regVal withV.t.a 1], len := 16, mask := maskOf withV.t.a 1,
                       blame := { kind := 2, pos := 0, pc := 0 } }
     leavesOf withV.t.a k.vals = [] ∧ overflowCut withV.t.a [k] = []) ∧
    (let u := modA bound fun a => { a with capBase := 0x100000, capSize := 0x4000 }
     ((allotAll u.t.a (usedRegions u.t.a) [1]).map fun l => overflowCut u.t.a (captureSinks u.t.a l)) = some []) ∧
    remoteFault (devPut withV (0x40000C60000 + 8 * 1151) 0x8000000000000000) (BitVec.ofNat 64 (1151 * 2 ^ 50)) 4 = none ∧
    tyInt (vreg withV.t.a 1).ty = true ∧ (rd withV 2).toNat % 64 = 0 ∧
    dependents withV.t.a (fun l => l.extent.meets 4096 tcmWindow) = [] ∧
    (loadNat (regs withV [(2, 0x100000)]) 0x100000 64).2.toOption = some 0 ∧ badStride (shapeOf 0) 4 = none :=
  ⟨by unfold onComputeCore; decide +kernel, by decide +kernel⟩

/-- The state in which VRED.ADD has forced a pass over v1. -/
def forcing : State := after (.vredAdd 1 3 0 6) withV

/-- The pass that is in flight. -/
def flying : Pass := (switchTo forcing 0).t.pass.getD
  { sinks := [], len := 0, captureOnly := true, completes := false, fpc := 0, start := Vector.replicate 4 0, next := Vector.replicate 4 0, clock := 0,
    ends := [], watch := [], chunks := 0, began := 0, st := Saved.empty, ftz := false, xq := false, tally := Tally.zero,
    lost := Vector.replicate 4 0, skipped := none }

/-- That pass once it has worked its groups and its lanes are done. -/
def flown : State := { modT forcing fun t => { t with pass := some { flying with next := #v[64, 80, 96, 112] } } with
  c := { forcing.c with cyc := flying.began + 1000 } }

theorem witness_PassesEnd : (switchTo forcing 0).t.redo.isNone = true ∧ up forcing (coreOf 0) = true ∧ (switchTo forcing 0).c.lcNext = none ∧
    (switchTo forcing 0).t.pass.isSome = true ∧ flying.next = #v[0, 16, 32, 48] ∧ flying.len = 16 ∧ flying.completes = true ∧
    flying.watch = [] ∧ pickFor (switchTo forcing 0) flying = some 0 ∧ up flown (coreOf 0) = true ∧
    ((switchTo flown 0).t.pass.map fun p => decide (p.open = []) && decide (passDue (switchTo flown 0) p = 0) && p.watch.isEmpty) = some true := by
  decide +kernel

/-- What the one group of that pass does, and that it may complete; and one that its masks exclude. -/
theorem witness_PassGroup :
    (let u := switchTo forcing 0
     let ready (skip : Option (List Nat)) : Bool :=
       let p : Pass := { flying with skipped := skip }
       let slips := slipsIn u.t.a p
       let at_ := p.nextAt slips 0
       let p0 := { p with clock := if slips then at_ else p.clock, lost := p.lost.setIfInBounds 0 (p.lost.toList.getD 0 0 + ceilDiv (at_ - p.issueAt 0) 12) }
       let k := max 1 (clustersHeld u)
       let sc := passChunk u p0
       let rm := readMasks u p0 sc.2
       let q := rm.1
       let z := q.slide slips k 0
       let enters (x : State) (f : BitVec 6) (c1 : Chunk) (p1 : Pass) : Bool :=
         !passFull (modT (raise x f) fun t => { t with sealed := some c1, pass := some p1 }) c1 p1 && x.c.lcNext.isNone
       if q.skips 0 then
         enters sc.1 0 rm.2 (z.after k 0 (z.tally.skip (z.place k 0 0)) false)
       else
         let g := planOf u.t.a q
         match runElems (Work.start sc.1 rm.2 q.st g.nodes none) q g.parts g.nodes g.side g.caps 0 16 with
         | .error _ => false
         | .ok w =>
           let els := w.els.reverse
           let c1 := w.close q 0
           !passCapacity u c1 && !passOutside u c1 && !holdsGroup q u.t.a.cmpthr.toNat els && (groupWatch w.s q 0 16 w.seen).isNone &&
           let y := { z with st := w.st, lost := z.lost.setIfInBounds 0 (z.lost.toList.getD 0 0 + bankWaits w.seen) }
           enters w.s w.fl c1 (y.after k 0 (tallyGroup k y g.nodes u.t.a.cmpthr.toNat 0 els) (!q.xq))
     holdsCluster u && u.t.passEffort.wanted.isEmpty && ready none && ready (some [0]) &&
     ((readMasks u { flying with skipped := some [0] } (passChunk u flying).2).1.skips 0)) = true := by decide +kernel

/-- A WEAVE at 0x110000 of a block of one node, v1 := v1 + v1, at 0x110008. -/
def weaving : State :=
  { modA (base .u) fun a => { a with pc := 0x110000 } with
    tlb := [{ vf := 0, asid := 0, root := 0, page := 17, leaf := 0x110077, size := 65536, fot := 0, holder := 0 }],
    mem := tables ++ keyed 0x110012 [0x1C, 0x6F, 0x7B, 0x10, 0x04, 0x01] ++ [(0x11001F, 0xFF)] }

theorem witness_WeaveAppends : (wd (relTarget weaving.t.a.pc (2 : BitVec 21).toInt)).toNat % 8 = 0 ∧
    (fetchWord weaving 0x110008).2.toOption = some 0 ∧ headerOk 0 = true ∧
    (fetchWords (fetchWord weaving 0x110008).1 0x110010 2).2 = ([0x104107B6F1C0000, 0xFF00000000000000], none) ∧
    blockDefect 0 [0x104107B6F1C0000, 0xFF00000000000000] = none ∧
    (fetchWords (fetchWord weaving 0x110008).1 0x110010 2).1.t.a.nodes.length + 1 ≤ 64 := by decide +kernel

theorem witness_TileLoads : checkFailed (base .u) (drainCore (base .u)) = false ∧
    (let s := regs { base .u with mem := [] } [(1, 0xFFFFF00000000)]
     let used := { Chunk.empty 0 0 with slots := [(0, Slot.reset)] }
     onComputeCore s ∧ (rd s 1).toNat % 64 = 0 ∧ loadsSlot s.t 0 = false ∧ loadsSlot (threadAt s (siblingOf s.cur)) 0 = false ∧
     ((modT s fun t => { t with chunk := used }).t.chunk.slots.any fun p => p.1 == 0) = true ∧
     (let v := putThread s 1 { Thread.reset 1 with run := .running, closed := some used }
      loadsSlot (threadAt v (siblingOf v.cur)) 0 = true) ∧
     ((imageHead (settleSealed s) (rd s 1)).2.toOption.map Prod.snd) = some 0 ∧ formOk 0 9 = true ∧
     (imagePlaces (imageHead (settleSealed s) (rd s 1)).1 (rd s 1 + 64) (bodySize 0 9 / 64)).2.toOption.isSome = true) :=
  ⟨by decide +kernel, by unfold onComputeCore; decide +kernel, by decide +kernel⟩

/-- Thread 0 with 32 tile rows, weight slot 0 for BF16, and 129 resident BF16 values in v1. -/
def matrix : State :=
  { modA (base .u) fun a => { a with v := a.v.set 1 { val := residentVal 9 (List.replicate 129 0), dirty := true } } with
    c := { core0 with tr0 := 32, slot0 := { Slot.reset with owner := some 0, ty := 9 } } }

theorem matrix_sorted : Sorted (drainMatrix matrix) := by
  constructor <;> simp [matrix, drainMatrix, base, core0, Core.reset, State.reset, State.canonical, Rising, modA, tables, Memory.wf]

theorem witness_MatrixRows : checkFailed matrix (drainMatrix matrix) = false ∧
    checkFailed (commitOpen matrix) (drainMatrix (commitOpen matrix)) = false ∧ onComputeCore matrix ∧ Sorted (drainMatrix matrix) ∧
    (let x := vreg matrix.t.a 1
     let sl := finishLoad (slotOf matrix.c 0)
     (x.resident && decide (x.len ≤ residentLimit x.ty) && x.ty == 9 && sl.owner == some matrix.cur && sl.ty == secondType 9 0 &&
      sl.poison == none) = true) ∧
    ([(0, 32), (31, 1), (0, 33)].map fun p => holdsRows { matrix with c := { matrix.c with tr0 := 64 } } p.1 p.2) = [true, true, true] ∧
    ([matrixError matrix [] (some 5), matrixError matrix [0] (some 3)].all Option.isNone) = true :=
  ⟨by decide +kernel, by decide +kernel, by unfold onComputeCore; decide +kernel, matrix_sorted, by decide +kernel⟩

/-- An operation of thread 0 over no bytes that has begun, its flag k. -/
def copying (k : Nat) : EngineOp :=
  { tid := 0, k := k, src := 0, dst := 0, count := 0, shapes := none, go := true, result := none, pos := 0, chunks := 0, chunk := none,
    was := [], effort := Effort.zero }

theorem witness_CopiesAreIssued : engineBusy (base .u) 3 = false ∧
    engineBusy { base .u with engines := [copying 3] } 3 = true ∧
    (loadNat (base .u) 0x100000 64).2.toOption = some 0 ∧
    (loadNat (loadNat (base .u) 0x100000 64).1 (0x100000 + 64) 64).2.toOption = some 0 := by decide +kernel

theorem witness_EventFlags :
    (let s := modA (base .u) fun a => { a with done := 0x8000 }
     s.t.a.done.getLsbD 15 = true ∧ s.t.a.done.getLsbD 0 = false ∧ (outstanding s).contains 15 = false) ∧
    (outstanding { base .u with engines := [copying 15] }).contains 15 = true := by decide +kernel

theorem witness_HandlersAndCode : (base .u).t.a.uiactive = false ∧ (modA (base .u) fun a => { a with uiactive := true }).t.a.uiactive = true ∧
    (rd (regs (base .u) [(1, 16777217)]) 1).toNat > 16777216 ∧ (rd (base .u) 1).toNat = 0 := by decide +kernel

/-- A panel descriptor of 1 by 1 quanta over 4 rows and 4 columns, with no counters, slot or group, in the core's own memory. -/
def descriptor : State :=
  { base .u with mem := (keyed 4503599627370496 (leBytes 82 (4 * 2 ^ 64 + 4 * 2 ^ 96 + 2 ^ 512 + 2 ^ 528 + 2 ^ 544 + (2 ^ 80 - 1) * 2 ^ 576))).filter fun e => e.2 != 0 }

/-- Thread 0 with the operands of a PANPOST of that descriptor. -/
def posting : State := regs descriptor [(1, 3), (2, 0xFFFFF00000000), (4, 1024)]

theorem witness_PanelsArePosted : (rd posting 2).toNat % 64 = 0 ∧
    localQueue (rd posting 1) = some 3 ∧ localQueue (rd posting 4) = none ∧ posting.jmode = 0 ∧
    qOwner (devPut posting (paQueue 3 0) 0x10000) 3 = posting.t.vfid ∧ qKind (devPut posting (paQueue 3 0) 0x10000) 3 ≠ 1 ∧
    qHeld (devPut posting (paQueue 3 0) 0x10000) 3 < qCap (devPut posting (paQueue 3 0) 0x10000) 3 ∧ poolUsed posting < 65536 ∧
    qOwner posting 3 ≠ posting.t.vfid ∧ qKind (devPut posting (paQueue 3 0) 0x10100) 3 = 1 ∧
    descValid posting (List.replicate 128 0) = false := by decide +kernel

theorem witness_Descriptor : ((loadLines posting 0xFFFFF00000000 2).2.toOption.map fun b => descValid posting b) = some true := by
  decide +kernel

theorem witness_TaskMessages : (4095 < 4096 ∧ slotOwner (base .u) 4095 = (base .u).t.vfid) ∧
    (16383 < 16384 ∧ counterOwner (base .u) 16383 = (base .u).t.vfid) ∧ ¬(rd (regs (base .u) [(1, 16384)]) 1).toNat < 16384 := by decide +kernel

/-- VF 0 owns panel queue 3, which holds one ready panel of the descriptor, homed on die 0. -/
def panelled : State :=
  let d := leBytes 128 (4 * 2 ^ 64 + 4 * 2 ^ 96 + 2 ^ 512 + 2 ^ 528 + 2 ^ 544 + (2 ^ 80 - 1) * 2 ^ 576)
  let p : Panel := ⟨0, 0, 3, d, 0, 0, 0, true, true, 0, 0, 0, 0, false⟩
  { devPut (base .u) (paQueue 3 0) 0x10000 with panels := [p] }

/-- A grant. -/
def grant0 : Grant := { row0 := 0, col0 := 0, rows := 1, cols := 1, tid := 0 }

/-- The state in which a PANGET of queue 3 acts. -/
def getting : State := modT (commitOpen (regs panelled [(1, 3)])) fun t => { t with stall := .none }

theorem witness_PanelGrants : (regs panelled [(1, 3)]).t.chunk.dev = [] ∧ (regs panelled [(1, 3)]).t.closed = none ∧
    getting.jmode = 0 ∧ localQueue (rd getting 1) = some 3 ∧ qOwner getting 3 = getting.t.vfid ∧ qKind getting 3 ≠ 1 ∧
    getting.t.grants.length < 4 ∧
    ((pickPanel (renegotiateNow getting) 3 0 (ownDie (renegotiateNow getting) 3)).map Prod.snd) = some true ∧
    ((pickPanel (renegotiateNow getting) 3 0 (ownDie (renegotiateNow getting) 3)).map fun p =>
      decide (grantRows p.1 (renegotiateNow getting).c.fcur (rowsHeld (renegotiateNow getting)) ≠ 0)) = some true ∧
    pickPanel { renegotiateNow getting with panels := [] } 3 0 (ownDie (renegotiateNow getting) 3) = none ∧
    writable128 getting 0x100000 = none ∧ overlapped getting 0x100000 128 = [] ∧
    (modT (base .u) fun t => { t with chunk := { t.chunk with dev := [(0x40000001000, 0)] } }).t.chunk.dev ≠ [] ∧
    localQueue (rd (regs (base .u) [(1, 1024)]) 1) = none ∧ qKind (devPut (base .u) (paQueue 3 0) 0x10100) 3 = 1 ∧
    4 ≤ (modT panelled fun t => { t with grants := List.replicate 4 grant0 }).t.grants.length := by decide +kernel

theorem witness_PanelDone : (let s := regs (modT panelled fun t => { t with grants := [grant0] }) [(6, 1), (7, 1)]
    BitVec.ofNat 64 grant0.row0 = rd s 4 ∧ BitVec.ofNat 64 grant0.col0 = rd s 5 ∧ BitVec.ofNat 64 grant0.rows = rd s 6 ∧
    BitVec.ofNat 64 grant0.cols = rd s 7) := by decide +kernel

/-- VF 0 owns item queue 3. -/
def queued : State := devPut (base .u) (paQueue 3 0) 0x10100

theorem witness_ItemsAreSent :
    (let s := regs queued [(1, 3), (2, 0x200000), (4, 1027)]
     s.jmode = 0 ∧ localQueue (rd s 1) = some 3 ∧ qOwner s 3 = s.t.vfid ∧ qsendRefused s (rd s 1) = none ∧ placeFree s (rd s 1) = true ∧
     qsendRefused s (rd s 2) = some 2 ∧ localQueue (rd s 4) = none ∧
     (closedAfter (queueMsg s (.item 3 0 0 none))).jmode = 0 ∧
     qsendRefused { s with credits := [(1027, 0)] } (rd s 4) = none ∧ placeFree { s with credits := [(1027, 0)] } (rd s 4) = false) ∧
    qsendRefused (regs panelled [(1, 3)]) 3 = some 3 := by decide +kernel

theorem witness_ItemsAreTaken :
    (let s := regs { queued with items := [(3, [{ lo := 1, hi := 2, place := none }])] } [(1, 3)]
     let u := commitOpen s
     s.t.chunk.dev = [] ∧ s.t.closed = none ∧ u.jmode = 0 ∧ localQueue (rd u 1) = some 3 ∧ qOwner u 3 = u.t.vfid ∧ qKind u 3 ≠ 0 ∧
     (qItems u 3).length = 1) ∧
    qItems (commitOpen queued) 3 = [] ∧ qKind (commitOpen panelled) 3 = 0 ∧ localQueue (rd (regs queued [(1, 1024)]) 1) = none := by decide +kernel

/-- A strip of 20 elements in steps of 16, with one base register. -/
def striping : State := modA (regs (base .u) [(1, 20), (2, 0x100000)]) fun a => { a with vlLen := 16, vlGrant := 16, bases := [(2, 8)] }

theorem witness_StripAdvances : onComputeCore striping ∧ striping.t.a.strip = [] ∧ (striping.t.a.bases.map Prod.fst).Nodup ∧
    (∀ e ∈ striping.t.a.bases, e.1 ≠ 0 ∧ e.1 ≠ 1) ∧ (rd striping 1).toNat - min 16 (rd striping 1).toNat ≠ 0 ∧
    (rd (regs striping [(1, 16)]) 1).toNat - min 16 16 = 0 ∧
    (let s := { regs striping [(3, 4095)] with slots := [(4095, { val := 32, poison := false })] }
     (rd s 3).toNat < 4096 ∧ slotOwner s 4095 = s.t.vfid ∧ (slotAt s 4095).poison = false ∧ 32 ≤ (slotAt s 4095).val.toNat) ∧
    ¬(rd (regs striping [(3, 4096)]) 3).toNat < 4096 ∧
    (slotAt { striping with slots := [(1, { val := 0, poison := true })] } 1).poison = true :=
  ⟨by unfold onComputeCore; decide +kernel, by decide +kernel, by decide +kernel, fun e h => by
    have := List.all_eq_true.mp (by decide +kernel : (striping.t.a.bases.all fun e => e.1 != 0 && e.1 != 1) = true) e h
    simpa using this, by decide +kernel⟩

/-- A record of group 5 with thread 0 as its member. -/
def group5 (cp ap : Int) (poison : Bool) : Group :=
  { owner := 0, members := [{ tid := 0, ap := ap, away := none }], cp := cp, log := [], record := some (cp, [(0, 0, 1000, 0)]), poison := poison, rose := 0 }

/-- Thread 0 in group 5, at phase SC. -/
def grouped (cp ap : Int) (sc : Word) (poison : Bool) : State :=
  modA (modT { base .u with groups := [(5, group5 cp ap poison)] } fun t => { t with groups := [5] }) fun a => { a with sc := sc }

theorem witness_GroupMembership :
    (let s := regs (grouped 0 0 1 false) [(1, 5), (2, 4095)]
     s.t.chunk.dev = [] ∧ s.t.closed = none ∧ (rd s 1).toNat < 4096 ∧ groupOwner s 5 = s.t.vfid ∧ s.jmode = 0 ∧ isMember s 5 s.cur = true ∧
     groupAt s 5 = some (group5 0 0 false) ∧
     ((group5 0 0 false).members.filter fun m => !(m.tid == s.cur && m.away.isNone)) = [] ∧ isMember s 4095 s.cur = false ∧
     s.t.groups.length < 8 ∧ groupAt s 4095 = none ∧ groupOwner s 4095 = s.t.vfid ∧ groupOwner s 2048 ≠ s.t.vfid) ∧
    (modT (base .u) fun t => { t with groups := List.range 8 }).t.groups.length = 8 ∧
    (({ group5 0 0 false with members := [{ tid := 0, ap := 0, away := none }, { tid := 1, ap := 0, away := none }] } : Group).members.filter fun m => !(m.tid == 0 && m.away.isNone)) ≠ [] := by
  decide +kernel

theorem witness_GroupsRise : Rising (grouped 0 0 1 false).groups := by simp [grouped, Rising, modA, modT]

theorem witness_BarrierPhases :
    (let s := regs (grouped 0 0 64 false) [(1, 5), (2, 0x100000)]
     let u := closedAfter s
     u.jmode = 0 ∧ s.t.chunk.dev = [] ∧ s.t.closed = none ∧ (rd s 1).toNat < 4096 ∧ groupOwner s 5 = s.t.vfid ∧
     groupAt s 5 = some (group5 0 0 false) ∧
     memberAp (group5 0 0 false) s.cur = some 0 ∧ 0 < s.t.a.sc.toInt ∧ s.t.a.sc.toInt ≤ (group5 0 0 false).cp + 64 ∧
     isMember s 5 s.cur = true ∧ allArrived (group5 0 0 false) (s.t.a.sc.toInt - 31) = false ∧
     allArrived (group5 0 0 false) (0 - (0 : Reg).toNat) = true ∧ (rd s 2).toNat % 64 = 0 ∧ groupBad s 5 = false ∧
     writable128 s (rd s 2) = none ∧ overlapped s (rd s 2) 128 = [] ∧ writable128 u (rd s 2) = none ∧
     (store128 u (rd s 2) (recordBytes 0 [(0, 0, 1000, 0)])).2 = none) ∧
    (grouped 0 0 65 false).t.a.sc.toInt > (group5 0 0 false).cp + 64 ∧ (grouped 0 0 0 false).t.a.sc.toInt ≤ 0 ∧
    groupAt (grouped 0 0 1 true) 5 = some (group5 0 0 true) ∧ groupAt (base .u) 5 = none ∧ memberAp (group5 0 0 false) 1 = none := by decide +kernel

theorem witness_RemoteAccesses :
    (let s := devPut (base .u) (0x40000C60000 + 8 * 1151) 0x8000000000000000
     remoteFault s (BitVec.ofNat 64 (1151 * 2 ^ 50)) 8 = none ∧ remoteFault s 4 8 = some 2 ∧ remoteFault s 0 8 = some 3 ∧
     (after (.rld 1 2 3) (regs s [(2, BitVec.ofNat 64 (1151 * 2 ^ 50))])).t.stall = .remote 1 8 (BitVec.ofNat 64 (1151 * 2 ^ 50)) ∧
     up (after (.rld 1 2 3) (regs s [(2, BitVec.ofNat 64 (1151 * 2 ^ 50))])) 0 = true) := by decide +kernel

theorem witness_CallsEnterHandlers : (commitOpen (commitOpen (base .u))).t.lvl ≠ .h ∧ nested (commitOpen (commitOpen (base .u))).t.tstatus = false ∧
    nested (commitOpen (commitOpen (base .h))).t.hstatus = false ∧ (commitOpen (commitOpen (base .h))).t.lvl = .h := by decide +kernel

theorem witness_ReturnsFromTraps : (base .u).t.lvl = .u ∧ (base .s).t.lvl ≠ .u ∧ (commitOpen (base .s)).t.lvl = .s ∧
    (commitOpen (base .h)).t.lvl = .h := by decide +kernel

theorem witness_PrivilegeIsChecked : (base .u).t.lvl = .u ∧ (base .s).t.lvl ≠ .h ∧ (0x100 : BitVec 12).toNat / 256 > (base .u).t.lvl.code ∧
    (0x200 : BitVec 12).toNat / 256 > (base .s).t.lvl.code := by decide +kernel

/-- Steward 0 at H with its table at 0 and a page of its own, the frame owner table above it. -/
def stewardH : State :=
  { State.reset with dev := [(paModule 0x38, 1)], t := { Thread.reset 320 with ctxbase := 0xFFFFF10000000 } }

theorem witness_ContextsMove : canSave stewardH = true ∧ (rd (regs stewardH [(1, 0xFFFFF10000000)]) 1).toNat % 4096 = 0 ∧
    stewardH.t.lvl ≠ .u ∧
    ((imageAt (regs stewardH [(1, 0xFFFFF10000000)]) 0xFFFFF10000000).map
      (loadable (loadState (regs stewardH [(1, 0xFFFFF10000000)]) 0xFFFFF10000000))) = some false := by decide +kernel

/-- Steward 0 at a level, an image of zeros whose CHECK is x in its SRAM, the image's address in x1. -/
def imaged (lvl : Level) (x : Nat) : State :=
  { State.reset with
    dev := [(paModule 0x38, 1)], t := { Thread.reset 320 with lvl := lvl, a := { Arch.reset 0 with x := (Arch.reset 0).x.set 1 0xFFFFF10000000 } },
    mem := [(18014398509481994, 0x02)] ++ (List.range 4).map (fun i => (18014398509481996 + i, BitVec.ofNat 8 (x / 256 ^ i))) }

theorem imaged_commit (lvl : Level) (x : Nat) : commitOpen (imaged lvl x) = imaged lvl x := rfl

theorem imaged_fot (lvl : Level) (x : Nat) : fotEntry (imaged lvl x) 0 56623424 = 0 := rfl

theorem imaged_mib (lvl : Level) (x : Nat) : sramMib (imaged lvl x) 0 = 1 := by
  have h : devGet (imaged lvl x) (paModule (0x38 + 8 * 0)) = 1 := by
    have : (imaged lvl x).dev = (imaged .h 0).dev := rfl
    unfold devGet; rw [this]; decide +kernel
  unfold sramMib; rw [h]; decide +kernel

theorem sram_index (i : Nat) (hi : i < 64) : fotIndex (18014398509481984 + 64 * i) = some 56623424 := by
  unfold fotIndex
  rw [if_neg (by omega), if_neg (by omega), if_neg (by omega), if_pos (by omega)]
  simp only [Option.some.injEq]; omega

theorem imaged_frame (lvl : Level) (x : Nat) (k : Nat) (h : fotIndex k = some 56623424) :
    frameCheck (imaged lvl x) (who (imaged lvl x)) k = none := by
  have t : (imaged lvl x).t = (imaged lvl 0).t := rfl
  have hf : fotOf (imaged lvl x) (who (imaged lvl x)) k = 0 := by
    have e : (who (imaged lvl x)).fot = 0 := by
      show fld (imaged lvl x).t.fotbase 16 34 * 65536 = 0
      rw [t]; cases lvl <;> decide +kernel
    unfold fotOf; rw [h, e]; simp [imaged_fot]
  have hw : entryCheck (who (imaged lvl x)) 0 = none := by
    have e : (who (imaged lvl x)).vf = 0 := rfl
    unfold entryCheck; cases (who (imaged lvl x)).lvl <;> simp [e, bitAt]
  unfold frameCheck; rw [h, hf, hw]; rfl

theorem sram_key (m : Nat → Nat) (hm : m 0 = 1) (core i : Nat) (hi : i < 64) :
    localKey m core (4503595600838656 + 64 * i) = some (18014398509481984 + 64 * i) := by
  have ho : (4503595600838656 + 64 * i) % 4294967296 = 268435456 + 64 * i := by omega
  have hp : 268435456 + 64 * i - 268435456 = 64 * i := by omega
  have hd : 64 * i / 16777216 = 0 := by omega
  have hr : 64 * i % 16777216 = 64 * i := by omega
  unfold localKey
  simp only [ho, hp, hd, hr, hm]
  rw [if_neg (by omega), if_neg (by omega), if_pos (by omega), if_pos (by omega)]
  rfl

theorem imaged_local (lvl : Level) (x : Nat) : ∀ i < 64, Laws.isLocal (imaged lvl x) (0xFFFFF10000000 + BitVec.ofNat 64 (64 * i)) (18014398509481984 + 64 * i) := by
  intro i hi
  have h : ((0xFFFFF10000000 : Word) + BitVec.ofNat 64 (64 * i)).toNat = 4503595600838656 + 64 * i := by
    rw [BitVec.toNat_add]; simp; omega
  refine ⟨by omega, by omega, ?_, ?_⟩
  · rw [h]; unfold localPlace
    rw [sram_key _ (imaged_mib lvl x) _ i hi]; dsimp only
    rw [imaged_frame lvl x _ (sram_index i hi)]
  · unfold isDevice; simp; omega

/-- The check word of an image of zeros but for its kind. -/
def zeroCheck : Nat := (Config.checkCode (List.replicate 312 0)).toNat

theorem imaged_image (lvl : Level) : ∃ r, (readImage (Laws.withReads (imaged lvl zeroCheck) []) 0xFFFFF10000000) = (Laws.withReads (imaged lvl zeroCheck) r,
    .ok { head := (List.range' 18014398509481984 4096).map (viewByte (imaged lvl zeroCheck)), weave := [], data := [], tiles := [], slots := [] }) := by
  obtain ⟨r, h⟩ := Laws.loadLines_local (imaged lvl zeroCheck) 64 [] 0xFFFFF10000000 18014398509481984 (imaged_local lvl zeroCheck) rfl rfl
  refine ⟨r, ?_⟩
  unfold readImage
  rw [h]; rfl

/-- The image that imaged holds. -/
def zeroImage (lvl : Level) : ImageData :=
  { head := (List.range' 18014398509481984 4096).map (viewByte (imaged lvl zeroCheck)), weave := [], data := [], tiles := [], slots := [] }

theorem imaged_imageAt (lvl : Level) : imageAt (imaged lvl zeroCheck) 0xFFFFF10000000 = some (zeroImage lvl) := by
  obtain ⟨r, h⟩ := imaged_image lvl
  have e : Laws.withReads (imaged lvl zeroCheck) [] = imaged lvl zeroCheck := rfl
  unfold imageAt
  rw [imaged_commit, ← e, h]; rfl

theorem image_byte (lvl : Level) (j : Nat) (b : Byte) (hj : j < 4096) (h : viewByte (imaged lvl zeroCheck) (18014398509481984 + j) = b) :
    (zeroImage lvl).head.getD j 0 = b := by
  simp [zeroImage, List.getD, hj, h]

theorem image_check (lvl : Level) : dfld (zeroImage lvl).head 0xC 4 = zeroCheck := by
  have hz : zeroCheck < 2 ^ 32 := (Config.checkCode (List.replicate 312 0)).isLt
  simp only [dfld, leNat]
  rw [image_byte lvl 12 (BitVec.ofNat 8 (zeroCheck / 256 ^ 0)) (by omega) rfl, image_byte lvl 13 (BitVec.ofNat 8 (zeroCheck / 256 ^ 1)) (by omega) rfl,
    image_byte lvl 14 (BitVec.ofNat 8 (zeroCheck / 256 ^ 2)) (by omega) rfl, image_byte lvl 15 (BitVec.ofNat 8 (zeroCheck / 256 ^ 3)) (by omega) rfl]
  simp only [BitVec.toNat_ofNat]
  omega

theorem image_block (lvl : Level) : ((zeroImage lvl).head.drop 0x3A8).take 312 = List.replicate 312 0 := by
  cases lvl <;> decide +kernel

theorem image_ok (lvl : Level) (l : List Nat) : checkOk (zeroImage lvl) true l = true := by
  unfold checkOk
  rw [image_block, image_check]
  exact decide_eq_true rfl

theorem witness_ContextLoads (lvl : Level) (hlvl : lvl ≠ .u) :
    canLoad (imaged lvl zeroCheck) (rd (imaged lvl zeroCheck) 1) = true ∧
    (loadState (imaged lvl zeroCheck) (rd (imaged lvl zeroCheck) 1)).t.lvl = lvl := by
  have hr : rd (imaged lvl zeroCheck) 1 = 0xFFFFF10000000 := rfl
  have hs : isSteward 320 = true := by decide
  have h2 : dfld (zeroImage lvl).head 0xA 1 = 2 := by cases lvl <;> decide +kernel
  have h3 : dfld (zeroImage lvl).head 8 1 = 0 := by cases lvl <;> decide +kernel
  have hv : imageVf (zeroImage lvl).head = 0 := by cases lvl <;> decide +kernel
  have hc : (loadState (imaged lvl zeroCheck) 0xFFFFF10000000).cur = 320 := by cases lvl <;> decide +kernel
  have hf : (loadState (imaged lvl zeroCheck) 0xFFFFF10000000).t.vfid = 0 := by cases lvl <;> decide +kernel
  have hl : (loadState (imaged lvl zeroCheck) 0xFFFFF10000000).t.lvl = lvl := by cases lvl <;> decide +kernel
  have key : ∀ s : State, s.cur = 320 → s.t.vfid = 0 → loadable s (zeroImage lvl) = true := by
    intro s a b
    simp [loadable, image_ok, a, b, hs, h2, h3, hv]
  have hu : (imaged lvl zeroCheck).t.lvl = lvl := rfl
  refine ⟨?_, by rw [hr]; exact hl⟩
  unfold canLoad
  rw [hr, imaged_imageAt, hu]
  simp only [Option.any, key _ hc hf]
  cases lvl <;> first | exact absurd rfl hlvl | decide

theorem witness_HaltsAndMarks : rd (commitOpen (base .u)) 1 = 0 ∧ (base .s).t.lvl ≠ .u ∧ fld (base .s).t.hptbase 63 1 = 0 ∧
    fld (rd (base .s) 1) 16 47 = 0 ∧ fld (modT (base .s) fun t => { t with hptbase := 0x8000000000000000 }).t.hptbase 63 1 = 1 ∧
    fld (rd (regs (base .s) [(1, 0x10000)]) 1) 16 47 ≠ 0 ∧ (commitOpen stewardH).t.lvl = .h ∧
    (let u := commitOpen (base .s)
     ∀ i ∈ liveTids u, ownHits (switchTo u i).t (usesNamed u.t.vfid (rd u 1) (rd u 1)) = false ∧
       agentsHit (switchTo u i) (usesNamed u.t.vfid (rd u 1) (rd u 1)) = false) := by decide +kernel

def framesH : State :=
  { State.reset with mem := tables, t := { Thread.reset 320 with fotbase := 0x40000000 } }

theorem witness_FramesAndKeys :
    (let s := regs framesH [(1, 56624447), (2, 0x40), (3, 56624448), (4, 8191), (5, 8192), (6, 0x100000)]
     let u := commitOpen s
     s.t.lvl = .h ∧ ¬(56624448 ≤ (rd u 1).toNat ∨ fld (rd u 2) 31 33 ≠ 0 ∨ fld (rd u 2) 23 7 ≠ 0 ∨ fld (rd u 2) 13 3 ≠ 0) ∧
     bitAt (fotEntry u (fld u.t.fotbase 16 34 * 65536) 56624447) 31 = false ∧ 56624448 ≤ (rd u 3).toNat ∧
     (rd s 6).toNat % 64 = 0 ∧ (loadNat u (rd s 6) 64).2.toOption = some 0 ∧ (rd (loadNat u (rd s 6) 64).1 4).toNat < 8192 ∧
     8192 ≤ (rd (loadNat u (rd s 6) 64).1 5).toNat) ∧
    bitAt (fotEntry (put framesH (0x40000000 + 8 * 7) 8 0x80000000) 0x40000000 7) 31 = true := by decide +kernel

theorem witness_ModuleComesUp : (base .u).jmode = 0 ∧ Memory.wf (base .u).mem = true ∧ ringSize (devGet (base .u) 0x40000A00010) = 0 := by
  decide +kernel

theorem witness_TrapsAreEntered :
    (let u := switchTo (base .u) 0
     let c := commitOpen u
     u.t.run = .running ∧ up (base .u) (coreOf 0) = true ∧ u.t.pass = none ∧ c.t.lvl ≠ .h ∧ nested c.t.hstatus = false ∧ nested c.t.tstatus = false) ∧
    nested (commitOpen (switchTo (modT (base .u) fun t => { t with tstatus := 0x80 }) 0)).t.tstatus = true ∧
    (switchTo (modT (base .u) fun t => { t with run := .parked }) 0).t.run ≠ .running ∧
    (settleSealed (switchTo (base .u) 0)).t.pass = none ∧
    (let x := stopPass (settleSealed (switchTo (base .u) 0)) none
     x.t.chunk.dev = [] ∧ x.t.closed = none) ∧
    (stopPass (settleSealed (switchTo (modT (base .u) fun t => { t with chunk := { t.chunk with dev := [(0x40000000010, 0)] } }) 0)) none).t.chunk.dev ≠ [] ∧
    (∀ since ∈ [0, 5], let u := switchTo { modT (base .u) (fun t => { t with stall := .rand since }) with time := #v[1000000 * 2 ^ 32, 0, 0, 0, 0] } 0
     u.t.stall = .rand since ∧ u.t.chunk.dev = [] ∧ u.t.closed = none ∧ (since + 1000000 * 2 ^ 32 ≤ dieTime u (dieOf (coreOf u.cur)) ↔ since = 0)) := by decide +kernel

/-- Thread 0 with flag 15 set and enabled, and with a pre-emption that S has asked for. -/
def uiReady : State := switchTo (modA (base .u) fun a => { a with done := 0x8000, uien := 0x8000 }) 0
def preReady (r : RunState) : State := switchTo (modT (base .u) fun t => { t with preS := true, run := r, parkLeft := some 3 }) 0

theorem witness_InterruptsLand : uiReady.jmode = 0 ∧ uiBoundary uiReady = true ∧
    (commitOpen uiReady).t.a.done &&& (commitOpen uiReady).t.a.uien ≠ 0 ∧
    (∀ r ∈ [RunState.running, .parked, .timed], (preReady r).jmode = 0 ∧ preBoundary (preReady r) = true ∧ (preReady r).t.preH = false ∧
      (preReady r).t.pass = none ∧ (preReady r).t.run = r) ∧
    (commitOpen (modT (preReady .running) fun t => { t with preS := false, stall := .none })).t.lvl ≠ .h ∧
    nested (commitOpen (modT (preReady .running) fun t => { t with preS := false, stall := .none })).t.tstatus = false ∧
    (base .u).t.dumpbase.toNat / 2 ^ 23 % 2 ^ 29 = 0 ∧ fld (devGet (base .u) (paVf (base .u).t.vfid 0x28)) 63 1 = 0 ∧
    fld (devGet (base .u) 0x40000000030) 63 1 = 0 := by decide +kernel

theorem witness_InterruptSorted : Sorted (switchTo (base .u) 0) := by constructor <;> simp [base, core0, switchTo, State.reset, State.canonical, Rising, tables, Memory.wf, Core.reset]

/-- Thread 0 with a stall. -/
def stalledOn (st : Stall) : State := modT (base .u) fun t => { t with stall := st }

/-- A wake from thread 320 to thread 0 on its way. -/
def waking (r : RunState) : State := { modT (base .u) (fun t => { t with run := r }) with wakes := [.wake 320 0 0 .h 0] }

theorem witness_WaitsEnd :
    (∀ r ∈ [RunState.running, .parked, .napping], (waking r).jmode = 0 ∧
      (waking r).wakes.find? (isWake 320 0) = some (.wake 320 0 0 .h (threadAt (waking r) 0).vfid) ∧
      up (waking r) (coreOf 0) = true ∧ (threadAt (waking r) 0).run = r ∧
      (threadAt (waking r) 0).vfid = (switchTo (waking r) 0).t.vfid) ∧
    (coreAt { waking .parked with c := { core0 with gated := true } } (coreOf 0)).gated = true ∧
    (ungate { waking .parked with c := { core0 with gated := true } } (coreOf 0)).c.gated = false ∧
    (coreAt { waking .parked with c := { core0 with relock := some (1000, 0) } } (coreOf 0)).relock ≠ none ∧
    (switchTo (modT (waking .timed) fun t => { t with parkLeft := some 0 }) 0).t.parkLeft = some 0 ∧
    (switchTo (modT (waking .timed) fun t => { t with parkLeft := some 0 }) 0).t.run = .timed ∧
    (switchTo (waking .timed) 0).t.parkLeft ≠ some 0 ∧ (switchTo (stalledOn (.yield 0)) 0).t.stall = .yield 0 ∧
    (switchTo (stalledOn (.yield 16)) 0).t.stall = .yield 16 ∧ (liveTids (stalledOn (.rand 0))).find? (fun i => waitsForDraw (threadAt (stalledOn (.rand 0)) i) &&
      !randLate (switchTo (stalledOn (.rand 0)) i) && (coreAt (stalledOn (.rand 0)) (coreOf i)).relock.isNone && !(coreAt (stalledOn (.rand 0)) (coreOf i)).off) = some 0 ∧
    (switchTo (stalledOn (.waitv 5 true)) 0).t.stall = .waitv 5 true ∧ (switchTo (stalledOn (.waitv 5 false)) 0).t.stall = .waitv 5 false ∧
    groupAt (switchTo { stalledOn (.barw 5 1 1) with groups := [(5, group5 0 0 false)] } 0) 5 = some (group5 0 0 false) ∧
    allArrived (group5 0 0 false) 1 = false ∧ allArrived (group5 0 0 false) 0 = true ∧
    isMember (switchTo { stalledOn (.barw 5 1 1) with groups := [(5, group5 0 0 false)] } 0) 5 0 = true ∧
    (let u := switchTo { stalledOn (.barw 5 1 1) with groups := [(5, group5 0 1 false)] } 0
     allArrived (group5 0 1 false) 1 = true ∧ releaseWait u 5 1 = 0 ∧ up u (coreOf 0) = true) ∧
    (let u := switchTo { modT steward (fun t => { t with stall := .barw 5 1 1 }) with groups := [(5, { group5 1 1 false with rose := 2 ^ 40 })] } 320
     u.t.stall = .barw 5 1 1 ∧ releaseWait u 5 1 ≠ 0 ∧ up u (coreOf 320) = true) ∧
    groupAt (switchTo { stalledOn (.barw 5 1 1) with groups := [(5, group5 0 0 true)] } 0) 5 = some (group5 0 0 true) ∧
    (slotAt (switchTo (stalledOn (.strip 1 1)) 0) 1).val.toNat < 1 ∧ (slotAt (stalledOn (.strip 1 1)) 1).poison = false ∧
    0 ≤ (slotAt (switchTo (stalledOn (.strip 1 0)) 0) 1).val.toNat ∧
    (64 : Int) ≤ (group5 0 0 false).cp + 64 ∧ (group5 0 0 false).cp + 64 < 65 ∧
    (∀ i ∈ liveTids (base .u), waitsForDraw (threadAt (base .u) i) = false) := by decide +kernel

/-- A PANGET of thread 0 that waits for a panel of another die: the instruction at its pc. -/
def pangetWaits (n : Nat) : State :=
  let s := regs (put { panelled with panels := panelled.panels.map fun p => { p with home := 1 } } 0x110000 4 (encode (.panget 4 1 0))) [(1, 3)]
  modT (modA s fun a => { a with pc := 0x110000 }) fun t => { t with stall := .panget n }

theorem witness_PangetWaits :
    (switchTo (pangetWaits 1024) 0).t.stall = .panget 1024 ∧ ownPanel (switchTo (pangetWaits 1024) 0) = false ∧
    (let u := switchTo (pangetWaits 0) 0
     let r := fetchControl u
     let v := modT (commitOpen r.1) fun t => { t with stall := .none }
     let x := renegotiateNow v
     u.t.stall = .panget 0 ∧ r.2.toOption = some (encode (.panget 4 1 0)) ∧ (decode (encode (.panget 4 1 0))).toOption = some (.panget 4 1 0) ∧
     r.1.t.chunk.dev = [] ∧ r.1.t.closed = none ∧ localQueue (rd v 1) = some 3 ∧ qOwner v 3 = v.t.vfid ∧ qKind v 3 ≠ 1 ∧
     v.t.grants.length < 4 ∧
     ((pickPanel x 3 x.cur (ownDie x 3)).map fun p => (p.2, decide (grantRows p.1 x.c.fcur (rowsHeld x) ≠ 0))) = some (false, true) ∧
     v.jmode = 0) := by decide +kernel

/-- Compute core 0 with a part of its state changed. -/
def withCore (f : Core → Core) : State := { base .u with c := f core0 }

theorem witness_CoresChangeSpeed :
    (base .u).jmode = 0 ∧ (coreAt (base .u) 0).waits = false ∧
    restful (switchTo (modT (base .u) fun t => { t with run := .parked }) 0) = true ∧ restful (switchTo (base .u) 0) = false ∧
    (switchTo (base .u) 0).c.gated = false ∧ (switchTo (base .u) 0).c.off = false ∧
    (coreAt (withCore fun c => { c with gated := true, stepHeld := some (1025, 1) }) 0).gated = true ∧ (coreAt (base .u) 0).gated = false ∧
    min 1025 (ceilingOf (base .u) 0) ≠ (coreAt (base .u) 0).fcur ∧ ceilingOf (base .u) 159 < 1825 ∧ 1800 ≤ ceilingOf (base .u) 0 ∧
    (let s := withCore fun c => { c with stepHeld := some (1025, 1) }
     targetOf s 0 = 1025 ∧ 1025 ≤ ceilingOf s 0 ∧ (coreAt s 0).stepHeld ≠ none ∧ stepWaits s 0 = false ∧ 1025 ≠ (coreAt s 0).fcur ∧ mayRaise s 0 = true) ∧
    (coreAt (base .u) 0).stepHeld = none ∧ mayRaise (base .u) 0 = true ∧ mayRaise { base .u with power := 2401 } 0 = false ∧ targetOf (base .u) 0 < 1800 ∧
    stepWaits (base .u) 0 = false ∧ stepWaits { base .u with held := [(7, 0)] } 0 = true ∧
    (let s := withCore fun c => { c with relock := some (1800, 7) }
     (coreAt s 0).sigL = [] ∧ (coreAt s 0).sigG = [] ∧ (coreAt s 0).stepHeld = none ∧ 1800 ≤ ceilingOf s 0 ∧
     (coreAt s 0).relock = some (1800, 7) ∧ (coreAt s 0).inbound = []) ∧ 1800 ≠ (coreAt (base .u) 0).fcur ∧
    ceilingOf (withCore fun c => { c with relock := some (1800, 7), cap := 1200 }) 0 < 1800 ∧
    (let s := withCore fun c => { c with fcur := 1025 }
     tcritOf s < 111 ∧ targetOf s 0 ≠ 1000 ∧ 1000 < (coreAt s 0).fcur ∧ stepWaits s 0 = false ∧ plimOf s < 2401 ∧ fastest s = 0 ∧
     1025 ≤ (coreAt s 0).fcur ∧ (coreAt s 0).fcur % 25 = 0 ∧ (coreAt s 0).fcur - 25 ≤ ceilingOf s 0) ∧
    91 ≤ twarnOf (base .u) ∧ twarnOf (base .u) < 91 + 5 ∧ 91 ≤ tcritOf (base .u) ∧ 2400 ≤ plimOf (base .u) ∧
    (coreAt (withCore fun c => { c with warm := true }) 0).warm = true ∧ railCritical (base .u) 0 = false ∧
    railCritical { devPut (base .u) 0x40000001018 1000 with rails := [(0, 950)] } 0 = true ∧ (Core.reset 0).temp ≤ tcritOf (base .u) + 5 ∧
    tcritOf (base .u) + 5 < (coreAt (withCore fun c => { c with temp := 116 }) 0).temp := by decide +kernel

/-- The lists of a small state are in order. -/
theorem sorted_base (lvl : Level) (f : Core → Core) (h : (f core0).tiles = []) : Sorted { base lvl with c := f core0 } := by
  constructor <;> simp [base, State.reset, State.canonical, Rising, tables, Memory.wf, h]

theorem witness_Sorted : Sorted (withCore fun c => { c with relock := some (1800, 7) }) :=
  sorted_base .u (fun c => { c with relock := some (1800, 7) }) rfl

/-- A closed chunk of thread 0, and one in a slice that another agent holds. -/
def closedChunk : State := switchTo (modT (base .h) fun t => { t with closed := some (Chunk.empty 0 0) }) 0
def wantsSlice (held : List (Nat × Nat)) : State := { modT (base .h) fun t => { t with wanted := [7] } with held := held }
/-- A step of no elements in the array, over slot 0. -/
def step0 : MatStep := { tid := 0, pc := 0, row := 511, act := [], ty := 9, slot := 0, scale := 0, acc := false, num := 0 }
/-- The slot of all zeros, and one whose check column is not the sum of its rows. -/
def badSlot : Slot := { Slot.reset with check := [{ neg := false, mant := 1, exp := 0 }] }

theorem witness_UnitsComplete :
    up (base .h) 0 = true ∧ (base .h).stopped = false ∧ (switchTo (base .h) 0).t.closed = none ∧
    (coreAt (withCore fun c => { c with relock := some (1800, 7) }) 0).relock ≠ none ∧
    closedChunk.t.closed = some (Chunk.empty 0 0) ∧ closedChunk.t.lvl = .h ∧ closedChunk.jmode = 0 ∧ closedChunk.t.streak < 63 ∧
    closedChunk.outOfTurn = false ∧ closedChunk.held = [] ∧ footprint { Chunk.empty 0 0 with readL := [2 ^ 46] } = [sliceOf (2 ^ 46)] ∧
    slicesFree (wantsSlice []) [7] = true ∧ slicesFree (wantsSlice [(7, 5)]) [7] = false ∧ (wantsSlice []).t.reserving = false ∧
    (switchTo { base .u with engines := [copying 15] } 0).engines.find? (fun e => e.tid == 0 && e.k == 15 && e.go && e.result.isNone) =
      some (copying 15) ∧ (copying 15).size ≤ (copying 15).pos ∧ ({ copying 15 with count := 1 } : EngineOp).pos < ({ copying 15 with count := 1 } : EngineOp).size ∧
    (coreAt (base .u) 0).mat = [] ∧
    (coreAt (withCore fun c => { c with mat := [step0] }) 0).mat = [step0] ∧ stepChecks step0 (finishLoad Slot.reset) = true ∧
    stepChecks { step0 with act := [0x3F80] } badSlot = false := by decide +kernel

theorem witness_StepSorted (m : MatStep) : Sorted (switchTo (withCore fun c => { c with mat := [m] }) 0) :=
  sorted_base .u (fun c => { c with mat := [m] }) rfl

theorem canonical_base (lvl : Level) : (base lvl).canonical := by unfold State.canonical; cases lvl <;> decide +kernel

/-- VF 3 of module 7 may reach VF 0's addresses through the table at 0. -/
def admitted : State :=
  { base .u with dev := [(0x40000C20200, 0), (0x40000C40000, BitVec.ofNat 64 (2 ^ 63 + 3 * 2 ^ 16 + 7))] }

theorem witness_RequestsArePerformed :
    (∀ k ∈ [Kind.read, .write, .amo], (portPlace admitted 7 3 k 0x10FFF8).2.toOption = some 0x10FFF8 ∧
      (let s1 := (portPlace admitted 7 3 k 0x10FFF8).1
       s1.stopped = false ∧ s1.held = [] ∧ s1.jmode = 0 ∧ s1.keyGen = [] ∧ Memory.wf s1.mem = true) ∧
      (portPlace (base .u) 7 3 k 0x10FFF8).2.toOption = none) ∧
    admitted.stopped = false ∧ admitted.held = [] ∧ admitted.jmode = 0 ∧ admitted.keyGen = [] ∧ Memory.wf admitted.mem = true ∧
    admission (base .u) 7 3 = none ∧ admission admitted 7 3 = some 0 ∧
    (rredReach admitted 7 3 0x100000 2 1 [5]).2.toOption = some [(0x100000, 5)] ∧
    (let s1 := (rredReach admitted 7 3 0x100000 2 1 [5]).1
     s1.stopped = false ∧ s1.held = [] ∧ s1.jmode = 0 ∧ s1.keyGen = [] ∧ Memory.wf s1.mem = true) ∧
    (rredReach admitted 7 3 0 2 1 [5]).2.toOption = none ∧
    isHostMem 8796093022208 = true ∧ isHostMem 13194139533311 = true ∧ isDram 0 = true ∧
    hypervisorFrame (put (base .u) 0x40000000 8 0x400000) 0 = true ∧ ({ base .u with stopped := true } : State).stopped = true := by
  decide +kernel

theorem witness_RepliesArrive :
    up (base .u) 0 = true ∧ (base .u).held = [] ∧ (base .u).resets = [] ∧
    (let item (l : List Msg) : Option (Nat × Bool) := (l.find? (Msg.itemOf 0)).bind Msg.itemVf
     let m (w : Bool) : Msg := .remoteItem 0 0 0x200000 0 0 w
     (item []).any (fun x => !x.2) = false ∧ (item [m false]).any (fun x => !x.2) = true ∧
     ([m true, m true].eraseP (Msg.itemOf 0)).any (fun x => x.itemOf 0 && x.itemVf.any Prod.snd) = true) ∧
    (threadAt (stalledOn (.remote 1 8 0)) 0).sent = [] ∧
    (switchTo (stalledOn (.remote 1 8 0)) 0).t.stall = .remote 1 8 0 ∧ (threadAt (stalledOn (.remote 1 8 0)) 0).stall = .remote 1 8 0 ∧
    (threadAt (base .u) 0).stall = .none ∧ (switchTo (stalledOn (.answer 1)) 0).t.stall = .answer 1 ∧
    (let s := devPut (devPut (base .u) (paVf 0 0x28) 0x8000000000000003) (paQueue 3 0) 0x10100
     let e := devGet s (paVf (threadAt s 0).vfid 0x28)
     fld e 63 1 = 1 ∧ fld e 0 10 = 3 ∧ qKind s 3 = 1 ∧ qOwner s 3 < 64 ∧ poolUsed s < 65536) ∧
    senderEntry (base .u) 3 7 5 false = none ∧
    senderEntry (devPut (base .u) (paSender 4095 0) (BitVec.ofNat 64 (2 ^ 63 + 5 * 2 ^ 32 + 7 * 2 ^ 16 + 3))) 3 7 5 false = some 4095 ∧
    (let s := devPut (devPut (base .u) (0x40000C50000 + 256 * 255) (BitVec.ofNat 64 (2 ^ 63 + 9))) (0x40000C50000 + 256 * 255 + 0x20) 0x80
     fld (collDw s 255 0) 63 1 == 1 && fld (collDw s 255 0) 0 32 == 9 && isPeer s 255 7) = true := by decide +kernel

/-- VF 0's doorbell queue is item queue 3, in which it has a place as a host sender. -/
def doorbells (places : Nat) : State :=
  devPut (devPut (devPut (base .u) (paVf 0 0x10) 3) (paQueue 3 0) 0x10100) (paSender 0 0)
    (BitVec.ofNat 64 (2 ^ 63 + 2 ^ 62 + places * 2 ^ 48 + 3))

theorem witness_RegistersAct :
    fld (devGet (doorbells 1) (paVf 0 0x10)) 0 21 = 3 ∧ senderEntry (doorbells 1) 3 0 0 true = some 0 ∧ qKind (doorbells 1) 3 ≠ 0 ∧
    inUse (doorbells 1) 0 < senderPlaces (doorbells 1) 0 ∧ senderPlaces (doorbells 0) 0 ≤ inUse (doorbells 0) 0 ∧
    qKind (devPut (doorbells 1) (paQueue 3 0) 0x10000) 3 = 0 ∧ senderEntry (devPut (doorbells 1) (paSender 0 0) 0) 3 0 0 true = none ∧
    1024 ≤ fld (devGet (devPut (base .u) (paVf 0 0x10) 1024) (paVf 0 0x10)) 0 21 ∧ (doorbells 1).jmode = 0 ∧
    fld (0x8000000000000000 : Word) 63 1 = 1 ∧ (threadAt (base .u) 0).run ≠ .halted ∧ (threadAt (base .u) 335).run = .halted ∧
    fld (16 : Word) 0 5 ≤ 16 ∧ 16 < fld (17 : Word) 0 5 ∧ ownerByte (base .u) 0xFF = 0 ∧ ownerByte (base .u) 0x2FF ≠ 64 ∧
    (let s := withCore fun c => { c with fcur := 1025 }
     let n := min 1800 (max 1000 (fld (1001 : Word) 0 12)) / 25 * 25
     n < (coreAt s 0).fcur ∧ n ≤ (coreAt s 0).cap ∧ stepWaits s 0 = false ∧ (coreAt s 0).waits = false ∧ (coreAt s 0).stepHeld = none) ∧
    targetOf (base .u) 0 ≤ 1000 ∧ threadsOf (base .u) 0 = [0] ∧ itemsOut (base .u) 0 = [] ∧
    itemsOut { base .u with outbound := [.remoteItem 0 0 0x200000 0 0 false] } 0 = [0] ∧ (devReg 0x40000001000).isSome = true ∧
    (devReg 0x40000C623F8).isSome = true ∧ fld (devGet (base .u) 0x40000000028) 63 1 = 0 ∧
    320 ≤ stewardH.cur ∧ stewardH.cur < 336 := by decide +kernel

theorem witness_RegistersSorted : Sorted (withCore fun c => c) := sorted_base .u (fun c => c) rfl

theorem witness_ThreadEventsAct : (switchTo (base .u) 0).t.pass = none ∧ up (base .u) (coreOf 0) = true ∧ (settleSealed (switchTo (base .u) 0)).c.mat = [] ∧ (switchTo (base .u) 0).c.mat = [] ∧ (switchTo (base .u) 0).t.lvl = .u ∧
    (switchTo (base .s) 0).t.lvl ≠ .u ∧ (devGet (switchTo (base .u) 0) (paDebug 0 0x48)).toNat / 2 ^ 32 % 65536 = 0 ∧
    (let c := devGet (switchTo (devPut (base .u) (paDebug 0 0x48) 0x1000001FE) 0) (paDebug 0 0x48)
     c.toNat / 2 ^ 32 % 65536 ≠ 0 ∧ c.getLsbD 8 = true) := by decide +kernel

/-- Thread 0 at an ADDI of page 17. -/
def atAddi : State := modA (put (base .u) 0x110000 4 0x08200005) fun a => { a with pc := 0x110000 }

/-- The state in which the ADDI is fetched. -/
def fetched : State × Except Flt Nat := fetchControl (cyclesPass atAddi 1)

theorem witness_StepRunsTheInstruction : atAddi.agenda = [] ∧ slotFor atAddi (nextLive atAddi) = atAddi.cur ∧
    slotFor { atAddi with agenda := [] } 0 = 0 ∧ atAddi.holdReset = false ∧ atAddi.jmode = 0 ∧ atAddi.held = [] ∧
    up atAddi 0 = true ∧ atAddi.c.stepHeld = none ∧ atAddi.t.run = .running ∧ atAddi.t.pass = none ∧
    atAddi.t.stall = .none ∧ atAddi.t.deferred = none ∧ atAddi.t.dropped = false ∧ closesHere atAddi = false ∧ ownHit atAddi = false ∧ mustWait atAddi = false ∧
    preBoundary atAddi = false ∧ uiBoundary atAddi = false ∧ fetched.2.toOption = some 0x08200005 ∧ lateness fetched.1 0x08200005 = 0 ∧
    breaksHere fetched.1 = false ∧ (decode 0x08200005).toOption = some (.addi 1 0 5) ∧
    undercut (issued fetched.1) (after (.addi 1 0 5) (issued fetched.1)) = false ∧
    (after (.addi 1 0 5) (issued fetched.1)).outOfTurn = false ∧ fits (after (.addi 1 0 5) (issued fetched.1)) = true := by decide +kernel

theorem witness_EncodingsDecode : (Instr.strip 1 0 0 1).wf = true ∧ isEvent (Instr.strip 1 0 0 1) = false ∧ (Instr.bev 15 3 0).wf = true := by
  decide +kernel

theorem witness_DecodingsEncode : 0xFC1F0000 < 2 ^ 32 ∧ (decode 0x0420FFFF).toOption.isNone = true ∧
    (decode 0x08200005).toOption = some (.addi 1 0 5) := by decide +kernel

theorem witness_StepsKeepForm : Sorted (base .u) ∧ (match step (base .u) with
    | .next _ => true
    | _ => false) = true := ⟨sorted_base .u id rfl, by decide +kernel⟩

theorem witness_StepsProceed : (base .u).holdReset = false ∧ ({ base .u with holdReset := true } : State).holdReset = true ∧
    ((base .u).agenda.find? Due.ofModule).isNone = true ∧
    ([.event .moduleReset, .upset .corrected] : List Due).all Due.ofModule = true := by decide +kernel

end Sys2Proof.Tests
end

section
/-! The decoder and the encoder are inverse (O56, O57). A field of a control word is a quotient and a remainder (R29): a few rules
read one out of a sum of fields; then each family of `decodeMajor` has one lemma per direction. -/

set_option Elab.async false

namespace Sys2Proof.Codec

open Sys2Proof Sys2Proof.Machine

/-! ### Reading one field out of a sum of fields -/

/-- A field above the modulus does not show in the remainder. -/
theorem add_mul_mod {x y k m : Nat} (h : k % m = 0) : (x + y * k) % m = x % m := by
  obtain ⟨q, rfl⟩ := Nat.dvd_of_mod_eq_zero h
  rw [Nat.mul_left_comm, Nat.add_mul_mod_self_left]

/-- A field above the divisor moves down. -/
theorem add_mul_div {x y k m : Nat} (hm : 0 < m) (h : k % m = 0) : (x + y * k) / m = x / m + y * (k / m) := by
  obtain ⟨q, rfl⟩ := Nat.dvd_of_mod_eq_zero h
  rw [Nat.mul_left_comm, Nat.add_mul_div_left _ _ hm, Nat.mul_div_cancel_left _ hm]

/-- A field below the divisor drops out, where the rest of the sum leaves its place empty. -/
theorem add_low_div {n x k m : Nat} (b : BitVec n) (hm : m % (k * 2 ^ n) = 0) (h : x % (k * 2 ^ n) < k) :
    (x + b.toNat * k) / m = x / m := by
  obtain ⟨q, rfl⟩ := Nat.dvd_of_mod_eq_zero hm
  have hle : b.toNat * k + k ≤ k * 2 ^ n := by
    rw [← Nat.succ_mul, Nat.mul_comm k]
    exact Nat.mul_le_mul_right k b.isLt
  have hsum : x % (k * 2 ^ n) + b.toNat * k < k * 2 ^ n := by omega
  have hlow : (x + b.toNat * k) / (k * 2 ^ n) = x / (k * 2 ^ n) :=
    calc (x + b.toNat * k) / (k * 2 ^ n)
      _ = (x % (k * 2 ^ n) + b.toNat * k + k * 2 ^ n * (x / (k * 2 ^ n))) / (k * 2 ^ n) := by
        rw [Nat.add_right_comm, Nat.mod_add_div]
      _ = x / (k * 2 ^ n) := by rw [Nat.add_mul_div_left _ _ (by omega), Nat.div_eq_of_lt hsum, Nat.zero_add]
  rw [← Nat.div_div_eq_div_mul, hlow, Nat.div_div_eq_div_mul]

/-- The lowest field is the remainder by its size, where the rest of the sum is above it. -/
theorem add_field_mod {n x m : Nat} (b : BitVec n) (hm : m = 2 ^ n) (h : x % m = 0) : (x + b.toNat) % m = b.toNat := by
  rw [hm] at h ⊢
  rw [Nat.add_mod, h, Nat.zero_add, Nat.mod_mod, Nat.mod_eq_of_lt b.isLt]

/-- So is a field that stands alone. -/
theorem field_mod {n m : Nat} (b : BitVec n) (hm : m = 2 ^ n) : b.toNat % m = b.toNat := by
  rw [hm, Nat.mod_eq_of_lt b.isLt]

/-- A field of which the remainder shows the place alone: what lies below it decides. -/
theorem mod_ne {x y k m r : Nat} (hm : m % k = 0) (h : ¬ x % k = r % k) : ((x + y * k) % m = r) = False := by
  refine eq_false fun e => h ?_
  obtain ⟨q, rfl⟩ := Nat.dvd_of_mod_eq_zero hm
  rw [← e, Nat.mod_mul_right_mod, Nat.add_mul_mod_self_right]

/-- The lowest field drops out of a quotient. -/
theorem add_low_div_one {n x m : Nat} (b : BitVec n) (hm : m % 2 ^ n = 0) (h : x % 2 ^ n = 0) : (x + b.toNat) / m = x / m := by
  simpa using add_low_div (k := 1) b (by simpa using hm) (by simp [h])

/-! ### The families of major opcodes -/

/-- The families that `decodeMajor` tells apart by the major opcode (R33), and the events, which have none. -/
inductive Family where
  | op | imm | bit | branch | mem | amo | order | vctl | vload | vstore | vred | weave | matrix | engine | task | group | remote
  | csr | thread | system | event

/-- The family of an instruction. -/
def family : Instr → Family
  | .add .. | .sub .. | .mul .. | .mulh .. | .mulhu .. | .div .. | .divu .. | .rem .. | .remu .. | .and .. | .or .. | .xor .. |
    .andn .. | .orn .. | .sll .. | .srl .. | .sra .. | .ror .. | .min .. | .max .. | .minu .. | .maxu .. | .slt .. | .sltu .. =>
    .op
  | .addi .. | .andi .. | .ori .. | .xori .. | .slli .. | .srli .. | .srai .. | .slti .. | .sltiu .. | .lui .. | .addpc .. =>
    .imm
  | .clz .. | .ctz .. | .popc .. | .sext .. | .zext .. | .bswap .. | .lea .. | .insh .. | .csel .. => .bit
  | .beq .. | .bne .. | .blt .. | .bge .. | .bltu .. | .bgeu .. | .jal .. | .jalr .. | .jtab .. | .strip .. | .bev .. => .branch
  | .ld .. | .st .. | .ldx .. | .stx .. | .pref .. => .mem
  | .amoadd .. | .amoand .. | .amoor .. | .amoxor .. | .amomin .. | .amomax .. | .amominu .. | .amomaxu .. | .amoswap .. |
    .amocas .. | .amofadd .. => .amo
  | .fence .. | .chunkend .. | .chunklim .. | .waitv .. | .ldaq .. | .strl .. => .order
  | .vsetl .. | .force .. | .vmat .. | .vdrop .. | .vbcast .. | .vget .. | .vins .. | .vconf .. | .vcompact .. | .mcnt .. |
    .mfirst .. | .mlogLogic .. | .mlogFromVector .. | .mlogToVector .. => .vctl
  | .vld .. | .vldFf .. | .vldM .. | .vlds .. | .vldx .. | .vldseg .. | .vldt .. => .vload
  | .vst .. | .vsts .. | .vstx .. | .vstseg .. | .vstt .. | .vscrAdd .. | .vscrMin .. | .vscrMax .. | .vscrAnd .. | .vscrOr .. |
    .vscrXor .. => .vstore
  | .vredAdd .. | .vredMin .. | .vredMax .. | .vredAnd .. | .vredOr .. | .vredXor .. | .vrediMin .. | .vrediMax .. => .vred
  | .weave .. => .weave
  | .mldw .. | .mrow .. | .mrowAcc .. | .mslide .. | .mslideAcc .. | .mzero .. | .mread .. | .mscale .. => .matrix
  | .acopy .. | .acopyt .. | .evwait .. | .evclr .. | .uiret .. | .icinv .. => .engine
  | .panpost .. | .panget .. | .pandone .. | .wmpub .. | .depset .. | .depdec .. | .qsend .. | .qsendNb .. | .qsendA .. | .qtake
    .. => .task
  | .gjoin .. | .gleave .. | .bara .. | .barw .. | .barinfo .. => .group
  | .rld .. | .rst .. | .ramo .. | .rred .. => .remote
  | .csrrd .. | .csrwr .. | .csrset .. | .csrclr .. | .rand .. => .csr
  | .park .. | .parkC .. | .wake .. | .nap .. | .yield .. => .thread
  | .ecall .. | .hcall .. | .trap .. | .iret .. | .ctxsave .. | .ctxload .. | .halt .. | .brk .. | .tlbinv .. | .framegive .. |
    .keyload .. | .tmark .. => .system
  | _ => .event


/-! ### A word is the sum of what its row checks and of its fields

One lemma for each format that several rows share (R30, R53): `m` is the major, `c` and `z` what the
selectors hold, `k` their sum. -/

/-- The first register field of a word (R29). -/
abbrev regD (w : Nat) : Reg := .ofNat 5 (w / 2097152 % 32)

/-- The second. -/
abbrev regA (w : Nat) : Reg := .ofNat 5 (w / 65536 % 32)

/-- The third. -/
abbrev regB (w : Nat) : Reg := .ofNat 5 (w / 2048 % 32)

/-- The quotients of a word as each one's quotient: what `omega` needs to see in a word with many fields. -/
theorem quotients_from_16 (w : Nat) : w / 256 = w / 16 / 16 ∧ w / 2048 = w / 16 / 16 / 8 ∧ w / 65536 = w / 16 / 16 / 8 / 32 ∧
    w / 2097152 = w / 16 / 16 / 8 / 32 / 32 ∧ w / 67108864 = w / 16 / 16 / 8 / 32 / 32 / 32 := by
  simp only [Nat.div_div_eq_div_mul, Nat.reduceMul, and_self]

/-- The same for a word with fields of one and two bits. -/
theorem quotients_from_4 (w : Nat) : w / 8 = w / 4 / 2 ∧ w / 16 = w / 4 / 2 / 2 ∧ w / 2048 = w / 4 / 2 / 2 / 128 ∧
    w / 65536 = w / 4 / 2 / 2 / 128 / 32 ∧ w / 2097152 = w / 4 / 2 / 2 / 128 / 32 / 32 ∧
    w / 67108864 = w / 4 / 2 / 2 / 128 / 32 / 32 / 32 := by
  simp only [Nat.div_div_eq_div_mul, Nat.reduceMul, and_self]

/-- The same for a row step (R230), with fields between the second register and the scale. -/
theorem quotients_of_row (w : Nat) : w / 256 = w / 16 / 16 ∧ w / 2048 = w / 16 / 16 / 8 ∧ w / 8192 = w / 16 / 16 / 8 / 4 ∧
    w / 16384 = w / 16 / 16 / 8 / 4 / 2 ∧ w / 65536 = w / 16 / 16 / 8 / 4 / 2 / 4 ∧
    w / 2097152 = w / 16 / 16 / 8 / 4 / 2 / 4 / 32 ∧ w / 67108864 = w / 16 / 16 / 8 / 4 / 2 / 4 / 32 / 32 := by
  simp only [Nat.div_div_eq_div_mul, Nat.reduceMul, and_self]

/-- Three registers and a selector. -/
theorem word_reg_reg_reg {w m k c : Nat} (hm : w / 67108864 = m) (hc : w % 2048 = c) (hk : k = m * 67108864 + c) :
    k + (regD w).toNat * 2097152 + (regA w).toNat * 65536 + (regB w).toNat * 2048 = w := by
  simp only [BitVec.toNat_ofNat]
  omega

/-- Two registers and 16 bits. -/
theorem word_reg_reg_imm {w m k : Nat} (hm : w / 67108864 = m) (hk : k = m * 67108864) :
    k + (regD w).toNat * 2097152 + (regA w).toNat * 65536 + (BitVec.ofNat 16 (w % 65536)).toNat = w := by
  simp only [BitVec.toNat_ofNat]
  omega

/-- Two registers and a selector. -/
theorem word_reg_reg {w m k c : Nat} (hm : w / 67108864 = m) (hc : w % 65536 = c) (hk : k = m * 67108864 + c) :
    k + (regD w).toNat * 2097152 + (regA w).toNat * 65536 = w := by
  simp only [BitVec.toNat_ofNat]
  omega

/-- The second register alone. -/
theorem word_second {w m k c z : Nat} (hm : w / 67108864 = m) (hc : w / 2097152 % 32 = c) (hz : w % 65536 = z)
    (hk : k = m * 67108864 + c * 2097152 + z) :
    k + (regA w).toNat * 65536 = w := by
  simp only [BitVec.toNat_ofNat]
  omega

/-- An atomic (R308). -/
theorem word_atomic {w m k c z : Nat} (hm : w / 67108864 = m) (hc : w / 16 % 128 = c) (hz : w / 4 % 2 = z)
    (hk : k = m * 67108864 + c * 16 + z * 4) :
    k + (regD w).toNat * 2097152 + (regA w).toNat * 65536 + (regB w).toNat * 2048 + (BitVec.ofNat 1 (w / 8 % 2)).toNat * 8 +
      (BitVec.ofNat 2 (w % 4)).toNat = w := by
  simp only [BitVec.toNat_ofNat, quotients_from_4 w] at *
  omega

/-- An exchange (R308). -/
theorem word_exchange {w m k c : Nat} (hm : w / 67108864 = m) (hc : w / 16 % 128 = c) (hk : k = m * 67108864 + c * 16) :
    k + (regD w).toNat * 2097152 + (regA w).toNat * 65536 + (regB w).toNat * 2048 + (BitVec.ofNat 1 (w / 8 % 2)).toNat * 8 +
      (BitVec.ofNat 1 (w / 4 % 2)).toNat * 4 + (BitVec.ofNat 2 (w % 4)).toNat = w := by
  simp only [BitVec.toNat_ofNat, quotients_from_4 w] at *
  omega

/-- A selector alone. -/
theorem word_bare {w m k c : Nat} (hm : w / 67108864 = m) (hc : w % 67108864 = c) (hk : k = m * 67108864 + c) :
    k = w := by
  omega

/-- The second and the third register. -/
theorem word_second_third {w m k c z : Nat} (hm : w / 67108864 = m) (hc : w / 2097152 % 32 = c) (hz : w % 2048 = z)
    (hk : k = m * 67108864 + c * 2097152 + z) :
    k + (regA w).toNat * 65536 + (regB w).toNat * 2048 = w := by
  simp only [BitVec.toNat_ofNat]
  omega

/-- The first register alone. -/
theorem word_first {w m k c : Nat} (hm : w / 67108864 = m) (hc : w % 2097152 = c) (hk : k = m * 67108864 + c) :
    k + (regD w).toNat * 2097152 = w := by
  simp only [BitVec.toNat_ofNat]
  omega

/-- Three registers and a type. -/
theorem word_stream {w m k c z : Nat} (hm : w / 67108864 = m) (hc : w / 256 % 8 = c) (hz : w % 16 = z)
    (hk : k = m * 67108864 + c * 256 + z) :
    k + (regD w).toNat * 2097152 + (regA w).toNat * 65536 + (regB w).toNat * 2048 + (BitVec.ofNat 4 (w / 16 % 16)).toNat * 16 =
      w := by
  simp only [BitVec.toNat_ofNat, quotients_from_16 w] at *
  omega

/-- Two registers, a mask and a type. -/
theorem word_reduce {w m k c z : Nat} (hm : w / 67108864 = m) (hc : w / 2048 % 32 = c) (hz : w % 16 = z)
    (hk : k = m * 67108864 + c * 2048 + z) :
    k + (regD w).toNat * 2097152 + (regA w).toNat * 65536 + (BitVec.ofNat 3 (w / 256 % 8)).toNat * 256 +
      (BitVec.ofNat 4 (w / 16 % 16)).toNat * 16 = w := by
  simp only [BitVec.toNat_ofNat, quotients_from_16 w] at *
  omega

/-- A store of streams (R199). -/
theorem word_store {w m k c : Nat} (hm : w / 67108864 = m) (hc : w % 16 = c) (hk : k = m * 67108864 + c) :
    k + (regD w).toNat * 2097152 + (regA w).toNat * 65536 + (regB w).toNat * 2048 + (BitVec.ofNat 3 (w / 256 % 8)).toNat * 256 +
      (BitVec.ofNat 4 (w / 16 % 16)).toNat * 16 = w := by
  simp only [BitVec.toNat_ofNat, quotients_from_16 w] at *
  omega

/-- A row step (R230). -/
theorem word_row {w m k c : Nat} (hm : w / 67108864 = m) (hc : w % 16 = c) (hk : k = m * 67108864 + c) :
    k + (regD w).toNat * 2097152 + (regA w).toNat * 65536 + (BitVec.ofNat 2 (w / 16384 % 4)).toNat * 16384 +
      (BitVec.ofNat 1 (w / 8192 % 2)).toNat * 8192 + (BitVec.ofNat 2 (w / 2048 % 4)).toNat * 2048 + (BitVec.ofNat 3 (w / 256 % 8)).toNat * 256 +
      (BitVec.ofNat 4 (w / 16 % 16)).toNat * 16 = w := by
  simp only [BitVec.toNat_ofNat, quotients_of_row w] at *
  omega

/-! ### A word that a family decodes is the encoding of what it decodes to -/

/-- One row of a decoder: it answers where its condition holds, and leaves the word to the rows below where not. -/
theorem forall_mem_row {α : Type} {c : Prop} {_ : Decidable c} {P : α → Prop} {r : α} {rest : Option α} (hit : c → P r)
    (miss : ∀ x ∈ rest, P x) : ∀ x ∈ (if c then some r else rest), P x := by
  split
  · rintro _ ⟨⟩
    exact hit ‹_›
  · exact miss

/-- Below the last row. -/
theorem forall_mem_none {α : Type} {P : α → Prop} : ∀ x ∈ (none : Option α), P x :=
  fun x h => absurd h (Option.not_mem_none x)

theorem encode_of_decodeOp {w : Nat} (hw : w / 67108864 = 1) : ∀ i ∈ decodeOp w, encode i = w := by
  unfold decodeOp
  iterate 24 refine forall_mem_row (fun hc => word_reg_reg_reg hw hc rfl) ?_
  exact forall_mem_none

theorem encode_of_decodeImm {w : Nat} : ∀ i ∈ decodeImm w, encode i = w := by
  unfold decodeImm
  iterate 4 refine forall_mem_row (fun hm => word_reg_reg_imm hm rfl) ?_
  iterate 7 refine forall_mem_row (fun _ => by simp only [encode, BitVec.toNat_ofNat]; omega) ?_
  exact forall_mem_none

theorem encode_of_decodeBit {w : Nat} (hw : w / 67108864 = 10) : ∀ i ∈ decodeBit w, encode i = w := by
  unfold decodeBit
  iterate 3 refine forall_mem_row (fun hc => word_reg_reg hw hc rfl) ?_
  iterate 2 refine forall_mem_row (fun hc => word_reg_reg_reg hw hc rfl) ?_
  refine forall_mem_row (fun hc => word_reg_reg hw hc rfl) ?_
  iterate 3 refine forall_mem_row (fun hc => word_reg_reg_reg hw hc rfl) ?_
  exact forall_mem_none

theorem encode_of_decodeBranch {w : Nat} : ∀ i ∈ decodeBranch w, encode i = w := by
  unfold decodeBranch
  iterate 6 refine forall_mem_row (fun hm => word_reg_reg_imm hm rfl) ?_
  refine forall_mem_row (fun _ => by simp only [encode, BitVec.toNat_ofNat]; omega) ?_
  refine forall_mem_row (fun hm => word_reg_reg_imm hm rfl) ?_
  refine forall_mem_row (fun ⟨hm, hc⟩ => word_reg_reg_reg hm hc rfl) ?_
  refine forall_mem_row (fun _ => by simp only [encode, BitVec.toNat_ofNat]; omega) ?_
  refine forall_mem_row (fun hm => word_reg_reg_imm hm rfl) ?_
  exact forall_mem_none

theorem encode_of_decodeMem {w : Nat} : ∀ i ∈ decodeMem w, encode i = w := by
  unfold decodeMem
  iterate 4 refine forall_mem_row (fun _ => by simp only [encode, BitVec.toNat_ofNat]; omega) ?_
  refine forall_mem_row (fun ⟨hm, hc, hz⟩ => word_second hm hc hz rfl) ?_
  exact forall_mem_none

theorem encode_of_decodeAmo {w : Nat} (hw : w / 67108864 = 27) : ∀ i ∈ decodeAmo w, encode i = w := by
  unfold decodeAmo
  iterate 8 refine forall_mem_row (fun ⟨hc, hz⟩ => word_atomic hw hc hz rfl) ?_
  iterate 2 refine forall_mem_row (fun hc => word_exchange hw hc rfl) ?_
  refine forall_mem_row (fun _ => by simp only [encode, BitVec.toNat_ofNat]; omega) ?_
  exact forall_mem_none

theorem encode_of_decodeOrder {w : Nat} (hw : w / 67108864 = 28) : ∀ i ∈ decodeOrder w, encode i = w := by
  unfold decodeOrder
  refine forall_mem_row (fun _ => by simp only [encode, BitVec.toNat_ofNat]; omega) ?_
  refine forall_mem_row (fun hc => word_bare hw hc rfl) ?_
  refine forall_mem_row (fun hc => word_reg_reg hw hc rfl) ?_
  refine forall_mem_row (fun ⟨hc, hz⟩ => word_second_third hw hc hz rfl) ?_
  iterate 2 refine forall_mem_row (fun _ => by simp only [encode, BitVec.toNat_ofNat]; omega) ?_
  exact forall_mem_none

theorem encode_of_decodeVctl {w : Nat} (hw : w / 67108864 = 32) : ∀ i ∈ decodeVctl w, encode i = w := by
  unfold decodeVctl
  refine forall_mem_row (fun hc => word_reg_reg hw hc rfl) ?_
  iterate 3 refine forall_mem_row (fun hc => word_first hw hc rfl) ?_
  refine forall_mem_row (fun _ => by simp only [encode, BitVec.toNat_ofNat]; omega) ?_
  iterate 2 refine forall_mem_row (fun hc => word_reg_reg_reg hw hc rfl) ?_
  iterate 7 refine forall_mem_row (fun _ => by simp only [encode, BitVec.toNat_ofNat]; omega) ?_
  exact forall_mem_none

theorem encode_of_decodeVload {w : Nat} (hw : w / 67108864 = 33) : ∀ i ∈ decodeVload w, encode i = w := by
  unfold decodeVload
  iterate 3 refine forall_mem_row (fun _ => by simp only [encode, BitVec.toNat_ofNat]; omega) ?_
  iterate 4 refine forall_mem_row (fun ⟨hc, hz⟩ => word_stream hw hc hz rfl) ?_
  exact forall_mem_none

theorem encode_of_decodeVstore {w : Nat} (hw : w / 67108864 = 34) : ∀ i ∈ decodeVstore w, encode i = w := by
  unfold decodeVstore
  refine forall_mem_row (fun ⟨hc, hz⟩ => word_reduce hw hc hz rfl) ?_
  iterate 10 refine forall_mem_row (fun hc => word_store hw hc rfl) ?_
  exact forall_mem_none

theorem encode_of_decodeVred {w : Nat} (hw : w / 67108864 = 35) : ∀ i ∈ decodeVred w, encode i = w := by
  unfold decodeVred
  iterate 8 refine forall_mem_row (fun ⟨hc, hz⟩ => word_reduce hw hc hz rfl) ?_
  exact forall_mem_none

theorem encode_of_decodeWeave {w : Nat} (hw : w / 67108864 = 36) : ∀ i ∈ decodeWeave w, encode i = w := by
  unfold decodeWeave
  refine forall_mem_row (fun _ => by simp only [encode, BitVec.toNat_ofNat]; omega) ?_
  exact forall_mem_none

theorem encode_of_decodeMatrix {w : Nat} (hw : w / 67108864 = 40) : ∀ i ∈ decodeMatrix w, encode i = w := by
  unfold decodeMatrix
  refine forall_mem_row (fun _ => by simp only [encode, BitVec.toNat_ofNat]; omega) ?_
  iterate 4 refine forall_mem_row (fun hc => word_row hw hc rfl) ?_
  refine forall_mem_row (fun _ => by simp only [encode, BitVec.toNat_ofNat]; omega) ?_
  refine forall_mem_row (fun hc => word_row hw hc rfl) ?_
  refine forall_mem_row (fun _ => by simp only [encode, BitVec.toNat_ofNat]; omega) ?_
  exact forall_mem_none

theorem encode_of_decodeEngine {w : Nat} (hw : w / 67108864 = 44) : ∀ i ∈ decodeEngine w, encode i = w := by
  unfold decodeEngine
  iterate 4 refine forall_mem_row (fun _ => by simp only [encode, BitVec.toNat_ofNat]; omega) ?_
  refine forall_mem_row (fun hc => word_bare hw hc rfl) ?_
  refine forall_mem_row (fun ⟨hc, hz⟩ => word_second_third hw hc hz rfl) ?_
  exact forall_mem_none

theorem encode_of_decodeTask {w : Nat} (hw : w / 67108864 = 45) : ∀ i ∈ decodeTask w, encode i = w := by
  unfold decodeTask
  iterate 2 refine forall_mem_row (fun hc => word_reg_reg_reg hw hc rfl) ?_
  refine forall_mem_row (fun hc => word_first hw hc rfl) ?_
  iterate 2 refine forall_mem_row (fun ⟨hc, hz⟩ => word_second_third hw hc hz rfl) ?_
  refine forall_mem_row (fun ⟨hc, hz⟩ => word_second hw hc hz rfl) ?_
  iterate 4 refine forall_mem_row (fun hc => word_reg_reg_reg hw hc rfl) ?_
  exact forall_mem_none

theorem encode_of_decodeGroup {w : Nat} (hw : w / 67108864 = 46) : ∀ i ∈ decodeGroup w, encode i = w := by
  unfold decodeGroup
  iterate 3 refine forall_mem_row (fun hc => word_reg_reg hw hc rfl) ?_
  iterate 2 refine forall_mem_row (fun hc => word_reg_reg_reg hw hc rfl) ?_
  exact forall_mem_none

theorem encode_of_decodeRemote {w : Nat} (hw : w / 67108864 = 47) : ∀ i ∈ decodeRemote w, encode i = w := by
  unfold decodeRemote
  iterate 4 refine forall_mem_row (fun _ => by simp only [encode, BitVec.toNat_ofNat]; omega) ?_
  exact forall_mem_none

theorem encode_of_decodeCsr {w : Nat} (hw : w / 67108864 = 48) : ∀ i ∈ decodeCsr w, encode i = w := by
  unfold decodeCsr
  iterate 4 refine forall_mem_row (fun _ => by simp only [encode, BitVec.toNat_ofNat]; omega) ?_
  refine forall_mem_row (fun hc => word_first hw hc rfl) ?_
  exact forall_mem_none

theorem encode_of_decodeThread {w : Nat} (hw : w / 67108864 = 49) : ∀ i ∈ decodeThread w, encode i = w := by
  unfold decodeThread
  refine forall_mem_row (fun hc => word_first hw hc rfl) ?_
  refine forall_mem_row (fun ⟨hc, hz⟩ => word_second hw hc hz rfl) ?_
  refine forall_mem_row (fun hc => word_reg_reg_reg hw hc rfl) ?_
  iterate 2 refine forall_mem_row (fun hc => word_bare hw hc rfl) ?_
  exact forall_mem_none

theorem encode_of_decodeSystem {w : Nat} (hw : w / 67108864 = 63) : ∀ i ∈ decodeSystem w, encode i = w := by
  unfold decodeSystem
  iterate 2 refine forall_mem_row (fun hc => word_bare hw hc rfl) ?_
  refine forall_mem_row (fun ⟨hc, hz⟩ => word_second hw hc hz rfl) ?_
  iterate 2 refine forall_mem_row (fun hc => word_bare hw hc rfl) ?_
  iterate 2 refine forall_mem_row (fun ⟨hc, hz⟩ => word_second hw hc hz rfl) ?_
  refine forall_mem_row (fun hc => word_bare hw hc rfl) ?_
  refine forall_mem_row (fun ⟨hc, hz⟩ => word_second_third hw hc hz rfl) ?_
  iterate 2 refine forall_mem_row (fun hc => word_reg_reg_reg hw hc rfl) ?_
  refine forall_mem_row (fun ⟨hc, hz⟩ => word_second_third hw hc hz rfl) ?_
  exact forall_mem_none

/-! ### The encoding of an instruction is decoded by its family -/

theorem decodeOp_encode (i : Instr) (h : family i = .op) :
    decodeMajor (encode i / 67108864) (encode i) = some (some i) := by
  cases i <;> cases h
  all_goals
    simp only [encode, decodeMajor, decodeOp, add_mul_mod, add_mul_div, add_low_div, add_field_mod, Nat.mul_one, Nat.reduceMod,
      Nat.reduceDiv, Nat.reduceMul, Nat.reducePow, Nat.reduceEqDiff, Nat.reduceLT, Nat.reduceLeDiff, reduceIte, and_true,
      or_self, BitVec.ofNat_toNat, BitVec.setWidth_eq]

theorem decodeImm_encode (i : Instr) (h : family i = .imm) :
    decodeMajor (encode i / 67108864) (encode i) = some (some i) := by
  cases i <;> cases h
  all_goals
    simp only [encode, decodeMajor, decodeImm, add_mul_mod, add_mul_div, add_low_div, add_low_div_one, add_field_mod,
      Nat.mul_one, Nat.reduceMod, Nat.reduceDiv, Nat.reduceMul, Nat.reducePow, Nat.reduceEqDiff, Nat.reduceLT,
      Nat.reduceLeDiff, reduceIte, and_true, and_false, false_and, or_self, and_self, BitVec.ofNat_toNat, BitVec.setWidth_eq]

theorem decodeBit_encode (i : Instr) (h : family i = .bit) :
    decodeMajor (encode i / 67108864) (encode i) = some (some i) := by
  cases i <;> cases h
  all_goals
    simp only [encode, decodeMajor, decodeBit, add_mul_mod, add_mul_div, add_low_div, add_field_mod, mod_ne, Nat.mul_one,
      Nat.reduceMod, Nat.reduceDiv, Nat.reduceMul, Nat.reducePow, Nat.reduceEqDiff, Nat.reduceLT, Nat.reduceLeDiff, reduceIte,
      and_true, and_false, or_self, not_false_eq_true, BitVec.ofNat_toNat, BitVec.setWidth_eq]

theorem decodeBranch_encode (i : Instr) (h : family i = .branch) :
    decodeMajor (encode i / 67108864) (encode i) = some (some i) := by
  cases i <;> cases h
  all_goals
    simp only [encode, decodeMajor, decodeBranch, add_mul_mod, add_mul_div, add_low_div, add_low_div_one, add_field_mod,
      Nat.mul_one, Nat.reduceMod, Nat.reduceDiv, Nat.reduceMul, Nat.reducePow, Nat.reduceEqDiff, Nat.reduceLT,
      Nat.reduceLeDiff, reduceIte, and_true, and_false, false_and, or_self, and_self, BitVec.ofNat_toNat, BitVec.setWidth_eq]

theorem decodeMem_encode (i : Instr) (h : family i = .mem) :
    decodeMajor (encode i / 67108864) (encode i) = some (some i) := by
  cases i <;> cases h
  all_goals
    simp only [encode, decodeMajor, decodeMem, add_mul_mod, add_mul_div, add_low_div, add_low_div_one, add_field_mod,
      Nat.mul_one, Nat.reduceMod, Nat.reduceDiv, Nat.reduceMul, Nat.reducePow, Nat.reduceEqDiff, Nat.reduceLT,
      Nat.reduceLeDiff, reduceIte, and_true, true_and, and_false, false_and, or_true, or_false, or_self, and_self,
      BitVec.ofNat_toNat, BitVec.setWidth_eq]

theorem decodeAmo_encode (i : Instr) (h : family i = .amo) :
    decodeMajor (encode i / 67108864) (encode i) = some (some i) := by
  cases i <;> cases h
  all_goals
    simp only [encode, decodeMajor, decodeAmo, add_mul_mod, add_mul_div, add_low_div, add_low_div_one, add_field_mod,
      Nat.mul_one, Nat.reduceMod, Nat.reduceDiv, Nat.reduceMul, Nat.reducePow, Nat.reduceEqDiff, Nat.reduceLT,
      Nat.reduceLeDiff, reduceIte, and_true, and_false, false_and, or_self, and_self, BitVec.ofNat_toNat, BitVec.setWidth_eq]

theorem decodeOrder_encode (i : Instr) (h : family i = .order) :
    decodeMajor (encode i / 67108864) (encode i) = some (some i) := by
  cases i <;> cases h
  all_goals
    simp only [encode, decodeMajor, decodeOrder, add_mul_mod, add_mul_div, add_low_div, add_low_div_one, add_field_mod, mod_ne,
      Nat.mul_one, Nat.reduceMod, Nat.reduceDiv, Nat.reduceMul, Nat.reducePow, Nat.reduceEqDiff, Nat.reduceLT,
      Nat.reduceLeDiff, reduceIte, and_true, true_and, and_false, or_self, and_self, not_false_eq_true, BitVec.ofNat_toNat,
      BitVec.setWidth_eq]
  all_goals
    congr 1
    repeat refine (if_neg (by omega)).trans ?_
    rfl

theorem decodeVctl_encode (i : Instr) (h : family i = .vctl) :
    decodeMajor (encode i / 67108864) (encode i) = some (some i) := by
  cases i <;> cases h
  all_goals
    simp only [encode, decodeMajor, decodeVctl, add_mul_mod, add_mul_div, add_low_div, add_field_mod, mod_ne, Nat.mul_one,
      Nat.reduceMod, Nat.reduceDiv, Nat.reduceMul, Nat.reducePow, Nat.reduceEqDiff, Nat.reduceLT, Nat.reduceLeDiff, reduceIte,
      and_true, true_and, and_false, false_and, or_self, and_self, not_false_eq_true, BitVec.ofNat_toNat, BitVec.setWidth_eq]
  all_goals
    congr 1
    repeat refine (if_neg (by omega)).trans ?_
    rfl

theorem decodeVload_encode (i : Instr) (h : family i = .vload) :
    decodeMajor (encode i / 67108864) (encode i) = some (some i) := by
  cases i <;> cases h
  all_goals
    simp only [encode, decodeMajor, decodeVload, add_mul_mod, add_mul_div, add_low_div, add_field_mod, mod_ne, Nat.mul_one,
      Nat.reduceMod, Nat.reduceDiv, Nat.reduceMul, Nat.reducePow, Nat.reduceEqDiff, Nat.reduceLT, Nat.reduceLeDiff, reduceIte,
      and_false, or_self, and_self, not_false_eq_true, BitVec.ofNat_toNat, BitVec.setWidth_eq]

theorem decodeVstore_encode (i : Instr) (h : family i = .vstore) :
    decodeMajor (encode i / 67108864) (encode i) = some (some i) := by
  cases i <;> cases h
  all_goals
    simp only [encode, decodeMajor, decodeVstore, add_mul_mod, add_mul_div, add_low_div, add_field_mod, Nat.mul_one,
      Nat.reduceMod, Nat.reduceDiv, Nat.reduceMul, Nat.reducePow, Nat.reduceEqDiff, Nat.reduceLT, Nat.reduceLeDiff, reduceIte,
      and_false, or_self, and_self, BitVec.ofNat_toNat, BitVec.setWidth_eq]

theorem decodeVred_encode (i : Instr) (h : family i = .vred) :
    decodeMajor (encode i / 67108864) (encode i) = some (some i) := by
  cases i <;> cases h
  all_goals
    simp only [encode, decodeMajor, decodeVred, add_mul_mod, add_mul_div, add_low_div, add_field_mod, Nat.mul_one,
      Nat.reduceMod, Nat.reduceDiv, Nat.reduceMul, Nat.reducePow, Nat.reduceEqDiff, Nat.reduceLT, Nat.reduceLeDiff, reduceIte,
      and_false, or_self, and_self, BitVec.ofNat_toNat, BitVec.setWidth_eq]

theorem decodeWeave_encode (i : Instr) (h : family i = .weave) :
    decodeMajor (encode i / 67108864) (encode i) = some (some i) := by
  cases i <;> cases h
  all_goals
    simp only [encode, decodeMajor, decodeWeave, add_low_div_one, add_field_mod, Nat.reduceMod, Nat.reduceDiv, Nat.reducePow,
      Nat.reduceEqDiff, Nat.reduceLeDiff, reduceIte, and_false, or_self, BitVec.ofNat_toNat, BitVec.setWidth_eq]

theorem decodeMatrix_encode (i : Instr) (h : family i = .matrix) :
    decodeMajor (encode i / 67108864) (encode i) = some (some i) := by
  cases i <;> cases h
  all_goals
    simp only [encode, decodeMajor, decodeMatrix, add_mul_mod, add_mul_div, add_low_div, add_field_mod, mod_ne, Nat.mul_one,
      Nat.reduceMod, Nat.reduceDiv, Nat.reduceMul, Nat.reducePow, Nat.reduceEqDiff, Nat.reduceLT, Nat.reduceLeDiff, reduceIte,
      and_false, or_self, and_self, not_false_eq_true, BitVec.ofNat_toNat, BitVec.setWidth_eq]

theorem decodeEngine_encode (i : Instr) (h : family i = .engine) :
    decodeMajor (encode i / 67108864) (encode i) = some (some i) := by
  cases i <;> cases h
  all_goals
    simp only [encode, decodeMajor, decodeEngine, add_mul_mod, add_mul_div, add_low_div, add_low_div_one, add_field_mod,
      mod_ne, Nat.mul_one, Nat.reduceMod, Nat.reduceDiv, Nat.reduceMul, Nat.reducePow, Nat.reduceEqDiff, Nat.reduceLT,
      Nat.reduceLeDiff, reduceIte, and_false, or_self, and_self, not_false_eq_true, BitVec.ofNat_toNat, BitVec.setWidth_eq]

theorem decodeTask_encode (i : Instr) (h : family i = .task) :
    decodeMajor (encode i / 67108864) (encode i) = some (some i) := by
  cases i <;> cases h
  all_goals
    simp only [encode, decodeMajor, decodeTask, add_mul_mod, add_mul_div, add_low_div, add_field_mod, mod_ne, Nat.mul_one,
      Nat.reduceMod, Nat.reduceDiv, Nat.reduceMul, Nat.reducePow, Nat.reduceEqDiff, Nat.reduceLT, Nat.reduceLeDiff, reduceIte,
      and_false, or_self, and_self, not_false_eq_true, BitVec.ofNat_toNat, BitVec.setWidth_eq]

theorem decodeGroup_encode (i : Instr) (h : family i = .group) :
    decodeMajor (encode i / 67108864) (encode i) = some (some i) := by
  cases i <;> cases h
  all_goals
    simp only [encode, decodeMajor, decodeGroup, add_mul_mod, add_mul_div, add_low_div, add_field_mod, mod_ne, Nat.mul_one,
      Nat.reduceMod, Nat.reduceDiv, Nat.reduceMul, Nat.reducePow, Nat.reduceEqDiff, Nat.reduceLT, Nat.reduceLeDiff, reduceIte,
      and_false, or_self, not_false_eq_true, BitVec.ofNat_toNat, BitVec.setWidth_eq]

theorem decodeRemote_encode (i : Instr) (h : family i = .remote) :
    decodeMajor (encode i / 67108864) (encode i) = some (some i) := by
  cases i <;> cases h
  all_goals
    simp only [encode, decodeMajor, decodeRemote, add_mul_mod, add_mul_div, add_low_div, add_low_div_one, add_field_mod,
      Nat.mul_one, Nat.reduceMod, Nat.reduceDiv, Nat.reduceMul, Nat.reducePow, Nat.reduceEqDiff, Nat.reduceLT,
      Nat.reduceLeDiff, reduceIte, and_true, and_false, false_and, or_self, and_self, BitVec.ofNat_toNat, BitVec.setWidth_eq]
  all_goals
    congr 1
    repeat refine (if_neg (by omega)).trans ?_
    rfl

theorem decodeCsr_encode (i : Instr) (h : family i = .csr) :
    decodeMajor (encode i / 67108864) (encode i) = some (some i) := by
  cases i <;> cases h
  all_goals
    simp only [encode, decodeMajor, decodeCsr, add_mul_mod, add_mul_div, add_low_div, add_low_div_one, add_field_mod, mod_ne,
      Nat.mul_one, Nat.reduceMod, Nat.reduceDiv, Nat.reduceMul, Nat.reducePow, Nat.reduceEqDiff, Nat.reduceLT,
      Nat.reduceLeDiff, reduceIte, and_false, or_self, not_false_eq_true, BitVec.ofNat_toNat, BitVec.setWidth_eq]

theorem decodeThread_encode (i : Instr) (h : family i = .thread) :
    decodeMajor (encode i / 67108864) (encode i) = some (some i) := by
  cases i <;> cases h
  all_goals
    simp only [encode, decodeMajor, decodeThread, add_mul_mod, add_mul_div, add_low_div, add_field_mod, mod_ne, Nat.mul_one,
      Nat.reduceMod, Nat.reduceDiv, Nat.reduceMul, Nat.reducePow, Nat.reduceEqDiff, Nat.reduceLT, Nat.reduceLeDiff, reduceIte,
      and_false, or_self, and_self, not_false_eq_true, BitVec.ofNat_toNat, BitVec.setWidth_eq]

theorem decodeSystem_encode (i : Instr) (h : family i = .system) :
    decodeMajor (encode i / 67108864) (encode i) = some (some i) := by
  cases i <;> cases h
  all_goals
    simp only [encode, decodeMajor, decodeSystem, add_mul_mod, add_mul_div, add_low_div, add_field_mod, mod_ne, Nat.mul_one,
      Nat.reduceMod, Nat.reduceDiv, Nat.reduceMul, Nat.reducePow, Nat.reduceEqDiff, Nat.reduceLT, Nat.reduceLeDiff, reduceIte,
      and_false, or_self, and_self, not_false_eq_true, BitVec.ofNat_toNat, BitVec.setWidth_eq]

/-! ### The two statements -/

/-- An instruction that is no event has a family. -/
theorem family_of_not_event (i : Instr) (h : isEvent i = false) : family i ≠ .event := by
  rintro hf
  have he : encode i = 0 := by cases i <;> cases hf <;> rfl
  simp [isEvent, he] at h

/-- The encoding of an instruction leads to the row of that instruction. -/
theorem decodeMajor_encode (i : Instr) (h : isEvent i = false) :
    decodeMajor (encode i / 67108864) (encode i) = some (some i) := by
  cases hf : family i with
  | op => exact decodeOp_encode i hf
  | imm => exact decodeImm_encode i hf
  | bit => exact decodeBit_encode i hf
  | branch => exact decodeBranch_encode i hf
  | mem => exact decodeMem_encode i hf
  | amo => exact decodeAmo_encode i hf
  | order => exact decodeOrder_encode i hf
  | vctl => exact decodeVctl_encode i hf
  | vload => exact decodeVload_encode i hf
  | vstore => exact decodeVstore_encode i hf
  | vred => exact decodeVred_encode i hf
  | weave => exact decodeWeave_encode i hf
  | matrix => exact decodeMatrix_encode i hf
  | engine => exact decodeEngine_encode i hf
  | task => exact decodeTask_encode i hf
  | group => exact decodeGroup_encode i hf
  | remote => exact decodeRemote_encode i hf
  | csr => exact decodeCsr_encode i hf
  | thread => exact decodeThread_encode i hf
  | system => exact decodeSystem_encode i hf
  | event => exact absurd hf (family_of_not_event i h)

/-- Whatever row a word leads to, its instruction is encoded as that word. -/
theorem encode_of_decodeMajor {w : Nat} : ∀ o ∈ decodeMajor (w / 67108864) w, ∀ i ∈ o, encode i = w := by
  unfold decodeMajor
  refine forall_mem_row encode_of_decodeOp ?_
  refine forall_mem_row (fun _ => encode_of_decodeImm) ?_
  refine forall_mem_row encode_of_decodeBit ?_
  refine forall_mem_row (fun _ => encode_of_decodeBranch) ?_
  refine forall_mem_row (fun _ => encode_of_decodeMem) ?_
  refine forall_mem_row encode_of_decodeAmo ?_
  refine forall_mem_row encode_of_decodeOrder ?_
  refine forall_mem_row encode_of_decodeVctl ?_
  refine forall_mem_row encode_of_decodeVload ?_
  refine forall_mem_row encode_of_decodeVstore ?_
  refine forall_mem_row encode_of_decodeVred ?_
  refine forall_mem_row encode_of_decodeWeave ?_
  refine forall_mem_row encode_of_decodeMatrix ?_
  refine forall_mem_row encode_of_decodeEngine ?_
  refine forall_mem_row encode_of_decodeTask ?_
  refine forall_mem_row encode_of_decodeGroup ?_
  refine forall_mem_row encode_of_decodeRemote ?_
  refine forall_mem_row encode_of_decodeCsr ?_
  refine forall_mem_row encode_of_decodeThread ?_
  refine forall_mem_row encode_of_decodeSystem ?_
  exact forall_mem_none

/-- Settles O56: each family of the decoder reads back what the encoder writes, and a well-formed instruction passes its check. -/
theorem encodingsDecode : Obligations.EncodingsDecode := by
  intro i hwf he
  simp only [decode, decodeMajor_encode i he, hwf, if_true]

/-- Settles O57: each row of the decoder checks every bit that it does not read, and `decode` checks the operands. -/
theorem decodingsEncode : Obligations.DecodingsEncode := by
  intro w i _ h
  unfold decode at h
  split at h
  · cases h
  · cases h
  · next hd =>
    split at h
    · next hwf =>
      cases h
      exact ⟨encode_of_decodeMajor _ hd _ rfl, hwf⟩
    · cases h

end Sys2Proof.Codec
end
section
/-! What an instruction that traps before it acts leaves: the alignment trap (O7) and the privilege checks (O40); and five words (O55). -/

set_option Elab.async false

namespace Sys2Proof.Proofs

open Sys2Proof Sys2Proof.Machine Sys2Proof.Laws

/-! ### Alignment (R46, R119) -/

/-- An instruction that checks an address before it acts takes the alignment trap where the check fails. -/
theorem exec_misaligned {j : Instr} {s : State} {va : Word} {n : Nat} {f : State → State} (he : exec j s = .next (aligned s va n f))
    (h : va.toNat % n ≠ 0) : exec j s = .next (takeTrap s (plainTrap 2 va) s.t.a.pc false false false) :=
  he.trans (congrArg _ (aligned_fails s va n f h))

/-- Every AMO checks its address first. -/
theorem amoOp_misaligned {d a : Reg} {n : Nat} {p : BitVec 1} {zero : Bool} {new : Nat → Option Nat × BitVec 6} {s : State}
    (h : (rd s a).toNat % n ≠ 0) : amoOp d a n p zero new s = trapHere s 2 (rd s a) :=
  by unfold amoOp; exact aligned_fails s (rd s a) n _ h

/-- JALR makes the check of its target itself (R116). -/
theorem exec_jalr_misaligned (s : State) (d a : Reg) (m : BitVec 16) (h : (rd s a + m.signExtend 64).toNat % 4 ≠ 0) :
    exec (.jalr d a m) s = .next (takeTrap s (plainTrap 2 (rd s a + m.signExtend 64)) s.t.a.pc false false false) :=
  congrArg Host.Outcome.next (if_pos h)

/-- Settles O7: every access and WAITV check their address first, and JALR its target. -/
theorem alignmentTraps : Obligations.AlignmentTraps := by
  intro s d a b i n z sz c m traps
  have check {j : Instr} {va : Word} {w : Nat} {f : State → State} (he : exec j s = .next (aligned s va w f)) : traps j va w :=
    exec_misaligned he
  have amo {j : Instr} {d a : Reg} {n : Nat} {p : BitVec 1} {zero : Bool} {new : Nat → Option Nat × BitVec 6}
      (he : exec j s = .next (amoOp d a n p zero new s)) : traps j (rd s a) n :=
    fun h => he.trans (congrArg _ (amoOp_misaligned h))
  exact ⟨check rfl, check rfl, check rfl, check rfl, check rfl, check rfl, amo rfl, amo rfl, amo rfl, amo rfl, check rfl,
    exec_jalr_misaligned s d a m⟩

/-! ### Privilege (R50, R357, R395) -/

/-- An instruction below its level is illegal, with its word. -/
theorem exec_below_level {i : Instr} {s : State} {low : Level} {f : State → State} (he : exec i s = .next (atLevel s low (encode i) f))
    (h : s.t.lvl.code < low.code) :
    exec i s = .next (takeTrap s (plainTrap 1 (BitVec.ofNat 64 (encode i))) s.t.a.pc false false false) :=
  he.trans (congrArg _ (atLevel_below s low _ f h))

/-- No CSR above the thread's level may be named. -/
theorem csrOk_above_level (s : State) (n : Nat) (h : n / 256 > s.t.lvl.code) : csrOk s n = false := by
  simp [csrOk, Nat.not_le.mpr h]

/-- A CSR instruction that names one is illegal, with its word. -/
theorem csrOp_not_ok (s : State) (w : Nat) (m : CsrMode) (d a : Reg) (c : BitVec 12) (h : csrOk s c.toNat = false) :
    csrOp w m d a c s = .next (illegal s w) := by
  simp [csrOp, h]

/-- Every level but H is below it. -/
theorem code_lt_of_ne_h {l : Level} (h : l ≠ .h) : l.code < Level.h.code := by
  cases l with
  | h => exact absurd rfl h
  | u | s => decide

/-- Settles O40: the level is checked before anything else. -/
theorem privilegeIsChecked : Obligations.PrivilegeIsChecked := by
  intro s d a b refuses
  refine ⟨fun hu => ?_, fun hh => ?_, fun c hc => ?_⟩
  · have hs : s.t.lvl.code < Level.s.code := by rw [hu]; decide
    exact ⟨exec_below_level rfl hs, exec_below_level rfl hs, exec_below_level rfl hs, exec_below_level rfl hs⟩
  · have hs := code_lt_of_ne_h hh
    exact ⟨exec_below_level rfl hs, exec_below_level rfl hs⟩
  · have ok := csrOk_above_level s c.toNat hc
    exact ⟨csrOp_not_ok s _ .read d 0 c ok, csrOp_not_ok s _ .write d a c ok, csrOp_not_ok s _ .set d a c ok,
      csrOp_not_ok s _ .clear d a c ok⟩

/-! ### Words (R29 to R34) -/

/-- Settles O55: the decoder evaluates on each word. -/
theorem wordsDecode : Obligations.WordsDecode := by
  unfold Obligations.WordsDecode
  decide

end Sys2Proof.Proofs
end

section
/-! User-interrupt returns and code invalidation (O28), and posting a panel (O29). -/

set_option Elab.async false

namespace Sys2Proof.Proofs

open Sys2Proof Sys2Proof.Machine Sys2Proof.Laws

/-! ### UIRET and ICINV (R268, R269) -/

/-- What UIRET restores (R268). -/
def restoreUi (u : State) : State := rebase (modA u fun a =>
  let h := a.shadow
  { a with x := (((a.x.set 28 h[0]).set 29 h[1]).set 30 h[2]).set 31 h[3], uiactive := false, pc := a.uipc.toNat })

/-- UIRET in a handler restores the registers once its chunk has committed. -/
theorem exec_uiret_active (s : State) (h : s.t.a.uiactive = true) : exec .uiret s = .next (restoreUi (closedAfter s)) := by
  show Host.Outcome.next (if (!s.t.a.uiactive) = true then _ else _) = _
  rw [if_neg (by simp [h])]
  rfl

/-- x28 to x31 are those that the interrupt saved. -/
theorem rd_restoreUi_high (u : State) (i : Nat) (hi : i < 4) :
    rd (restoreUi u) (BitVec.ofNat 5 (28 + i)) = u.t.a.shadow.toList.getD i 0 := by
  obtain rfl | rfl | rfl | rfl : i = 0 ∨ i = 1 ∨ i = 2 ∨ i = 3 := by omega
  all_goals simp [rd, restoreUi, rebase, modT, modA]

/-- The registers below are as they were. -/
theorem rd_restoreUi_low (u : State) (r : Reg) (hr : r.toNat < 28) : rd (restoreUi u) r = rd u r := by
  have h28 : 28 ≠ r.toNat := by omega
  have h29 : 29 ≠ r.toNat := by omega
  have h30 : 30 ≠ r.toNat := by omega
  have h31 : 31 ≠ r.toNat := by omega
  simp [rd, restoreUi, rebase, modT, modA, h28, h29, h30, h31]

/-- Nothing else changes but the checkpoint, which is that of a new chunk. -/
theorem keeps_restoreUi (u : State) : Keeps [.x, .pc, .ui, .ckpt] u (restoreUi u) :=
  keeps_of _ _ _ (by decide) (by simp only [erased, List.foldl, Part.erase, modA, modT, restoreUi, rebase])

/-- The code words that ICINV leaves (R269). -/
def keptCode (u : State) (va n : Nat) : List (Nat × Word) :=
  if n = 0 then u.c.icache
  else if 16777216 < n then []
  else u.c.icache.filter fun e => !((codeRanges u va n).any fun x => decide (x.1 ≤ e.1) && decide (e.1 ≤ x.2))

/-- The state in which ICINV has dropped what it names. -/
def dropCode (u : State) (va n : Nat) : State := { u with c := { u.c with icache := keptCode u va n } }

/-- The state that ICINV leaves: the next instruction follows in a new chunk. -/
def afterIcinv (u : State) (va n : Nat) : State := rebase (setPc (dropCode u va n) (u.t.a.pc + 4))

/-- ICINV acts once its chunk has committed. -/
theorem exec_icinv (s : State) (a b : Reg) :
    exec (.icinv a b) s = .next (afterIcinv (closedAfter s) (rd s a).toNat (rd s b).toNat) := by
  show Host.Outcome.next (closeThen s _) = _
  unfold closeThen afterIcinv dropCode keptCode closedAfter
  split
  · rfl
  · split <;> rfl

/-- What it leaves was there, and lies outside each range that it names. -/
theorem mem_keptCode (u : State) (va n : Nat) (e : Nat × Word) (he : e ∈ keptCode u va n) :
    e ∈ u.c.icache ∧ (0 < n → n ≤ 16777216 → ∀ r ∈ codeRanges u va n, e.1 < r.1 ∨ r.2 < e.1) := by
  unfold keptCode at he
  split at he
  · next h0 => exact ⟨he, fun h => absurd h0 (by omega)⟩
  · split at he
    · simp at he
    · obtain ⟨hm, hr⟩ := List.mem_filter.mp he
      refine ⟨hm, fun _ _ r hrm => ?_⟩
      refine Decidable.byContradiction fun hc => ?_
      simp only [Bool.not_eq_true', List.any_eq_false, Bool.and_eq_true, decide_eq_true_eq] at hr
      exact hr r hrm ⟨by omega, by omega⟩

/-- ICINV changes no other state but the program counter and the checkpoint. -/
theorem keeps_afterIcinv (u : State) (va n : Nat) : Keeps [.code, .pc, .ckpt] u (afterIcinv u va n) :=
  keeps_of _ _ _ (by decide)
    (by simp only [erased, List.foldl, Part.erase, modA, modT, blankCore, afterIcinv, dropCode, setPc, rebase])

/-- Settles O28: UIRET outside a handler is illegal; both instructions act on the state in which their chunk has committed. -/
theorem handlersAndCode : Obligations.HandlersAndCode := by
  intro s a b u
  refine ⟨fun h => ?_, fun h => ?_, ?_⟩
  · exact congrArg Host.Outcome.next (if_pos (by simp [h]))
  · exact ⟨_, exec_uiret_active s h, rd_restoreUi_high u, rd_restoreUi_low u, rfl, rfl, keeps_restoreUi u⟩
  · exact ⟨_, exec_icinv s a b, fun h => if_pos h, fun h => (if_neg (by omega)).trans (if_pos h), mem_keptCode u _ _, fun _ => rfl,
      rfl, keeps_afterIcinv u _ _⟩

/-! ### PANPOST (R316) -/

/-- With no journal a unit's response is its own (R419). -/
theorem recordNext_quiet (s : State) (kind : Nat) (h : quiet s) : recordNext s kind = none := by
  unfold quiet at h
  simp [recordNext, recordsOf, replaying, h]

/-- Nor is it recorded. -/
theorem obtain_quiet (s : State) (kind : Nat) (l : List Word) (h : quiet s) : obtain s kind l = s := if_pos h

/-- A unit answers at once where no journal is kept. -/
theorem answered_quiet (s : State) (live : State → List Word × State) (h : quiet s) (hl : quiet (live s).2) :
    answered s live = live s := by
  simp only [answered, recordNext_quiet s 7 h, obtain_quiet _ 7 _ hl]

/-- Posting keeps no journal where none was kept. -/
theorem quiet_postResult (u : State) (q : Nat) (bytes : List Byte) (h : quiet u) : quiet (postResult u q bytes).2 := by
  unfold postResult
  repeat' split
  all_goals exact h

/-- What PANPOST makes of the response of its queue. -/
def afterPost (d : Reg) (r : List Word × State) : State := complete (wr r.2 d (r.1.getD 0 0))

/-- PANPOST in the state in which its descriptor has been read and every earlier pass has committed. -/
theorem exec_panpost {s u0 u : State} {d a b : Reg} {bytes : List Byte} (ha : (rd s b).toNat % 64 = 0)
    (hl : loadLines s (rd s b) 2 = (u0, .ok bytes)) (hu : u = settleSealed u0) (hq : quiet u) :
    exec (.panpost d a b) s = .next (match localQueue (rd u a) with
      | none => afterPost d ([-2], u)
      | some q => if qOwner u q = u.t.vfid then afterPost d (postResult u q bytes) else trapHere u 4 (rd u a)) := by
  refine congrArg Host.Outcome.next ?_
  rw [aligned_holds s (rd s b) 64 _ ha]
  simp only [hl, ← hu]
  cases localQueue (rd u a) with
  | none =>
    have hr := answered_quiet u (fun s => ([-2], s)) hq hq
    simp only [hr]
    rfl
  | some q =>
    have hr := answered_quiet u (fun s => postResult s q bytes) hq (quiet_postResult u q bytes hq)
    simp only [ownQueue, hr]
    rfl

/-- A panel queue is asked for: the other kind answers -3. -/
theorem postResult_kind {u : State} {q : Nat} {bytes : List Byte} (hk : qKind u q = 1) : postResult u q bytes = ([-3], u) := if_pos hk

/-- An invalid descriptor answers -5. -/
theorem postResult_invalid {u : State} {q : Nat} {bytes : List Byte} (hk : qKind u q ≠ 1) (hv : descValid u bytes = false) :
    postResult u q bytes = ([-5], u) := by
  simp [postResult, hk, hv]

/-- A full queue or a full pool answers -1. -/
theorem postResult_full {u : State} {q : Nat} {bytes : List Byte} (hk : qKind u q ≠ 1) (hv : descValid u bytes = true)
    (hf : qCap u q ≤ qHeld u q ∨ 65536 ≤ poolUsed u) : postResult u q bytes = ([-1], u) := by
  simp only [postResult, hk, hv, hf, if_true, if_false, Bool.not_true, Bool.false_eq_true]

/-- Else an entry is taken, and the answer is its TID. -/
theorem postResult_taken {u : State} {q : Nat} {bytes : List Byte} (hk : qKind u q ≠ 1) (hv : descValid u bytes = true)
    (hh : qHeld u q < qCap u q) (hp : poolUsed u < 65536) :
    postResult u q bytes = ([wd (takeEntry u q bytes).2.tid], (takeEntry u q bytes).1) := by
  have hf : ¬ (qCap u q ≤ qHeld u q ∨ 65536 ≤ poolUsed u) := by omega
  simp only [postResult, hk, hv, hf, if_false, Bool.not_true, Bool.false_eq_true]

/-- What a posted panel leaves (R316). -/
structure Posted (u t : State) (q : Nat) (bytes : List Byte) (d : Reg) (p : Panel) : Prop where
  panels : t.panels = u.panels ++ [p]
  queue : p.queue = q
  waits : p.posted = false
  seq : p.seq = u.nextSeq
  desc : p.desc = bytes.take 82 ++ leBytes 2 u.t.vfid ++ bytes.drop 84
  result : puts u t d (BitVec.ofNat 64 p.tid)
  message : t.t.chunk.out = u.t.chunk.out ++ [.post p.tid]
  next : follows u t
  frame : Keeps [.x, .pc, .count, .panels, .out] u t

/-- Erasing parts one after another. -/
theorem erased_append (ps qs : List Part) (s : State) : erased (ps ++ qs) s = erased qs (erased ps s) := List.foldl_append

/-- A panel more and its message are the panels' and the open chunk's alone. -/
theorem erased_takeEntry (u : State) (q : Nat) (bytes : List Byte) :
    erased [.x, .pc, .count, .panels, .out] (takeEntry u q bytes).1 = erased [.x, .pc, .count, .panels, .out] u := by
  simp only [erased, List.foldl, Part.erase, modA, modT, queueMsg, takeEntry]

/-- A panel that takes an entry is posted, and its TID delivered. -/
theorem posted_takeEntry (u : State) (q : Nat) (bytes : List Byte) (d : Reg) :
    Posted u (complete (wr (takeEntry u q bytes).1 d (wd (takeEntry u q bytes).2.tid))) q bytes d (takeEntry u q bytes).2 := by
  have hw := wroteReg_complete_wr (takeEntry u q bytes).1 d (wd (takeEntry u q bytes).2.tid)
  have ho (r : Reg) : rd (takeEntry u q bytes).1 r = rd u r := rfl
  exact {
    panels := (complete_panels _).trans (wr_panels _ _ _)
    queue := rfl
    waits := rfl
    seq := rfl
    desc := rfl
    result := ⟨hw.result, fun r h => (hw.others r h).trans (ho r)⟩
    message := by unfold wr; split <;> rfl
    next := hw.next
    frame := keeps_of _ _ _ (by decide) (by
      have hr := congrArg (erased [.panels, .out]) hw.frame.rest
      rw [← erased_append, ← erased_append] at hr
      exact hr.trans (erased_takeEntry u q bytes)) }

/-- Settles O29: the checks of PANPOST in their order, and what a posted panel leaves. -/
theorem panelsArePosted : Obligations.PanelsArePosted := by
  intro s u u0 d a b bytes q gives
  refine ⟨fun h => congrArg Host.Outcome.next (aligned_fails s (rd s b) 64 _ h), fun ha hl hu hq => ?_⟩
  have he := exec_panpost (d := d) (a := a) ha hl hu hq
  have wrote {v : Word} (hx : exec (.panpost d a b) s = .next (afterPost d ([v], u))) : gives v :=
    ⟨_, hx, wroteReg_complete_wr u d v⟩
  refine ⟨fun hn => ?_, fun hs ho => ?_, fun hs ho => ?_⟩
  · rw [hn] at he
    exact wrote he
  · rw [hs] at he
    exact he.trans (congrArg _ (if_neg ho))
  · simp only [hs, ho, if_true] at he
    refine ⟨fun hk => ?_, fun hk hv => ?_, fun hk hv hf => ?_, fun hk hv hh hp => ?_⟩
    · rw [postResult_kind hk] at he
      exact wrote he
    · rw [postResult_invalid hk hv] at he
      exact wrote he
    · rw [postResult_full hk hv hf] at he
      exact wrote he
    · rw [postResult_taken hk hv hh hp] at he
      obtain ⟨h1, h2, h3, h4, h5, h6, h7, h8, h9⟩ := posted_takeEntry u q bytes d
      exact ⟨_, he, _, h1, h2, h3, h4, h5, h6, h7, h8, h9⟩

end Sys2Proof.Proofs
end

section
/-! The CSR instructions (O13): what a read obtains, what a write leaves alone, and the two forms of the instruction. -/

set_option Elab.async false

namespace Sys2Proof.Proofs

open Sys2Proof Sys2Proof.Machine Sys2Proof.Laws

/-! ### What a write of a CSR leaves alone -/

/-- No write of a CSR below 0x100 touches a general register or the program counter. -/
theorem putUser_keeps (lvl : Level) (n : Nat) (v : Word) (a : Arch) :
    (putUser lvl n v a).x = a.x ∧ (putUser lvl n v a).pc = a.pc := by
  simp only [putUser, putVrs, putFctl, putCmpthr, putChklim, putCapArea, apply_ite Arch.x, apply_ite Arch.pc, ite_self, and_self]

/-- Nor does one of a system register, nor what the thread has written. -/
theorem putSystem_keeps (n : Nat) (v : Word) (t : Thread) :
    (putSystem n v t).a.x = t.a.x ∧ (putSystem n v t).a.pc = t.a.pc ∧ (putSystem n v t).chunk = t.chunk ∧
      (putSystem n v t).closed = t.closed := by
  simp only [putSystem, putCtxbase, dirtyAll, apply_ite Thread.a, apply_ite Thread.chunk, apply_ite Thread.closed, apply_ite Arch.x,
    apply_ite Arch.pc, ite_self, and_self]

/-- FOTBASE alone names the table of the memory keys. -/
theorem putSystem_fotbase (n : Nat) (v : Word) (t : Thread) (h : n ≠ 0x213) : (putSystem n v t).fotbase = t.fotbase := by
  simp only [putSystem, putCtxbase, h, if_false, apply_ite Thread.fotbase, ite_self]

/-- A write of a CSR leaves the registers. -/
theorem rd_csrPut (s : State) (n : Nat) (v : Word) (r : Reg) : rd (csrPut s n v) r = rd s r := by
  have hx : (csrPut s n v).t.a.x = s.t.a.x := by
    unfold csrPut
    repeat' split
    · rfl
    · exact (putUser_keeps _ _ _ _).1
    · exact (putSystem_keeps _ _ _).1
    · exact (putSystem_keeps _ _ _).1
  simp only [rd, hx]

/-- And the program counter. -/
theorem csrPut_pc (s : State) (n : Nat) (v : Word) : (csrPut s n v).t.a.pc = s.t.a.pc := by
  unfold csrPut
  repeat' split
  · rfl
  · exact (putUser_keeps _ _ _ _).2
  · exact (putSystem_keeps _ _ _).2.1
  · exact (putSystem_keeps _ _ _).2.1

/-- The bytes that a thread sees depend on what its chunks have written, and on memory and its keys. -/
theorem viewByte_congr {s t : State} (hc : t.t.chunk.writes = s.t.chunk.writes) (hd : t.t.closed = s.t.closed)
    (hm : ∀ k, memByte t k = memByte s k) (k : Nat) : viewByte t k = viewByte s k := by
  simp only [viewByte, hc, hd, hm]

/-- Memory reads alike under one table of keys, and under any table where no key has been loaded anew (R358). -/
theorem memByte_congr {s t : State} (hm : t.mem = s.mem) (hg : t.keyGen = s.keyGen) (hl : t.lineGen = s.lineGen)
    (hf : s.keyGen = [] ∨ t.t.fotbase = s.t.fotbase) (k : Nat) : memByte t k = memByte s k := by
  rcases hf with h0 | hf
  · simp [memByte, lineFresh, rawByte, hm, hg, h0]
  · have hr : rawByte t = rawByte s := funext fun _ => by simp only [rawByte, hm]
    have hk : keySlot t k = keySlot s k := by simp only [keySlot, fotEntry, hr, hf]
    unfold memByte lineFresh
    rw [hr, hk, hg, hl]

/-- Where a system register has been written, the thread sees the same bytes, unless FOTBASE now names another
table and one is in use. -/
theorem viewByte_putSystem {s t : State} {n : Nat} {v : Word} (h : n = 0x213 → s.keyGen = []) (ht : t.t = putSystem n v s.t)
    (hm : t.mem = s.mem) (hg : t.keyGen = s.keyGen) (hl : t.lineGen = s.lineGen) {k : Nat} : viewByte t k = viewByte s k := by
  obtain ⟨-, -, hc, hd⟩ := putSystem_keeps n v s.t
  have hf : s.keyGen = [] ∨ t.t.fotbase = s.t.fotbase := by
    by_cases hn : n = 0x213
    · exact .inl (h hn)
    · exact .inr (by rw [ht, putSystem_fotbase n v s.t hn])
  exact viewByte_congr (by rw [ht, hc]) (by rw [ht, hd]) (memByte_congr hm hg hl hf) k

/-- A write of a number from 0x100 is one of a system register, and leaves memory and its keys. -/
theorem csrPut_system (s : State) (n : Nat) (v : Word) (hn : 0x100 ≤ n) :
    (csrPut s n v).t = putSystem n v s.t ∧ (csrPut s n v).mem = s.mem ∧ (csrPut s n v).keyGen = s.keyGen ∧
      (csrPut s n v).lineGen = s.lineGen := by
  unfold csrPut
  rw [if_neg (by omega), if_neg (by omega)]
  split
  · exact ⟨rfl, rfl, rfl, rfl⟩
  · exact ⟨rfl, rfl, rfl, rfl⟩

/-- A write of a CSR changes no byte that the thread sees, with that exception. -/
theorem viewByte_csrPut (s : State) (n : Nat) (v : Word) (h : n = 0x213 → s.keyGen = []) (k : Nat) :
    viewByte (csrPut s n v) k = viewByte s k := by
  rcases Nat.lt_or_ge n 0x100 with hn | hn
  · unfold csrPut
    rw [if_pos hn]
    split <;> rfl
  · obtain ⟨ht, hm, hg, hl⟩ := csrPut_system s n v hn
    exact viewByte_putSystem h ht hm hg hl

/-! ### The read and the write of one instruction -/

/-- What the write of a CSR instruction leaves, where it writes. -/
def csrWritten (u : State) (n : Nat) (w : Option Word) : State :=
  match w with
  | none => u
  | some x => csrPut u n x

theorem rd_csrWritten (u : State) (n : Nat) (w : Option Word) (r : Reg) : rd (csrWritten u n w) r = rd u r := by
  cases w with
  | none => rfl
  | some x => exact rd_csrPut u n x r

theorem csrWritten_pc (u : State) (n : Nat) (w : Option Word) : (csrWritten u n w).t.a.pc = u.t.a.pc := by
  cases w with
  | none => rfl
  | some x => exact csrPut_pc u n x

theorem viewByte_csrWritten (u : State) (n : Nat) (w : Option Word) (h : n = 0x213 → u.keyGen = []) (k : Nat) :
    viewByte (csrWritten u n w) k = viewByte u k := by
  cases w with
  | none => rfl
  | some x => exact viewByte_csrPut u n x h k

/-- A CSR is read as it stands: one that is journalled, where no journal is kept. -/
theorem csrGet_eq (u : State) (n : Nat) (h : csrTimed n = true → quiet u) : csrGet u n = (csrValue u n, u) := by
  unfold csrGet
  split
  · next ht => simp [volatileRead, recordNext_quiet u 6 (h ht), obtain_quiet u 6 _ (h ht)]
  · rfl

/-- With no matrix step of the thread in flight there is none to wait for. -/
theorem drainMatrix_idle (u : State) (h : ∀ m ∈ u.c.mat, m.tid ≠ u.cur) : drainMatrix u = u := by
  have hf : u.c.mat.filter (fun m => m.tid == u.cur) = [] := List.filter_eq_nil_iff.mpr fun m hm => by simp [h m hm]
  rw [drainMatrix, hf]
  rfl

/-- The state in which a CSR instruction reads: FSTAT and the lane counters wait for the passes (R83, R407). -/
def csrReady (s : State) (n : Nat) : State := if waitsForPass n = true then settleSealed s else s

/-- The read, the write, and the old value in X[D] (R125). -/
theorem csrAct_eq (m : CsrMode) (d a : Reg) (n : Nat) (s : State)
    (hi : n = 9 → ∀ x ∈ (settleSealed s).c.mat, x.tid ≠ (settleSealed s).cur) (hq : csrTimed n = true → quiet (csrReady s n)) :
    let u := csrReady s n
    csrAct m d a n s = wr (csrWritten u n (csrNew m n (csrValue u n) (rd u a))) d (csrValue u n) := by
  intro u
  have hs : (if n = 9 then waitVector (settleSealed s) else if 0x60 ≤ n ∧ n < 0x80 then settleSealed s else s) = u := by
    by_cases h9 : n = 9
    · rw [if_pos h9]
      exact (drainMatrix_idle _ (hi h9)).trans (by simp [u, csrReady, waitsForPass, h9])
    · rw [if_neg h9]
      simp only [u, csrReady, waitsForPass, h9, beq_iff_eq, Bool.or_eq_true, Bool.and_eq_true, decide_eq_true_eq, false_or]
  simp only [csrAct, hs, csrGet_eq u n hq]
  rfl

/-! ### The two forms of the instruction -/

/-- A guest's write goes to H only where it names PTBASE or ASID. -/
theorem csrGuest_low (s : State) (m : CsrMode) (n : Nat) (h : n < 0x100) : csrGuest s m n = false := by
  have h1 : (n == 0x120) = false := beq_eq_false_iff_ne.mpr (by omega)
  have h2 : (n == 0x121) = false := beq_eq_false_iff_ne.mpr (by omega)
  simp [csrGuest, h1, h2]

theorem csrOp_low (w : Nat) (m : CsrMode) (d a : Reg) (c : BitVec 12) (s : State) (ho : csrOk s c.toNat = true) (hn : c.toNat < 0x100) :
    csrOp w m d a c s = .next (complete (csrAct m d a c.toNat s)) := by
  simp only [csrOp, ho, csrGuest_low s m _ hn, hn, Bool.not_true, Bool.false_eq_true, if_false, if_true]

/-- The state that an instruction leaves which names a number from 0x100, when it acts in a state u (R126). -/
def afterHigh (m : CsrMode) (d a : Reg) (n : Nat) (u : State) (pc : Nat) : State := rebase (setPc (csrAct m d a n u) pc)

theorem csrOp_high (w : Nat) (m : CsrMode) (d a : Reg) (c : BitVec 12) (s : State) (ho : csrOk s c.toNat = true) (hn : 0x100 ≤ c.toNat)
    (hg : csrGuest s m c.toNat = false) :
    csrOp w m d a c s = .next (afterHigh m d a c.toNat (settleSealed (closedAfter s)) (s.t.a.pc + 4)) := by
  simp only [csrOp, ho, hg, Nat.not_lt.mpr hn, Bool.not_true, Bool.false_eq_true, if_false]
  rfl

/-- Only FSTAT and the lane counters, which are timed, make it wait. -/
theorem csrReady_untimed (u : State) (n : Nat) (h9 : n ≠ 9) (ht : csrTimed n = false) : csrReady u n = u := by
  have hl : (decide (0x60 ≤ n) && decide (n < 0x80)) = false := (Bool.or_eq_false_iff.mp ht).2
  simp [csrReady, waitsForPass, h9, hl]

/-- A number from 0x100 is read and written in the state as it stands. -/
theorem csrAct_high (m : CsrMode) (d a : Reg) (n : Nat) (u : State) (hn : 0x100 ≤ n) :
    csrAct m d a n u = wr (csrWritten u n (csrNew m n (csrValue u n) (rd u a))) d (csrValue u n) := by
  have ht : csrTimed n = false := by
    simp only [csrTimed, Bool.or_eq_false_iff, Bool.and_eq_false_iff, decide_eq_false_iff_not]
    omega
  have hu : csrReady u n = u := csrReady_untimed u n (by omega) ht
  have ha := csrAct_eq m d a n u (fun h => absurd h (by omega)) (fun h => by simp [ht] at h)
  rwa [hu] at ha

/-- What a new checkpoint and program counter leave of a register write: as much as its completion does. -/
theorem wrote_afterWrite (v : State) (d : Reg) (x : Word) (pc : Nat) :
    let t := rebase (setPc (wr v d x) pc)
    puts v t d x ∧ t.t.a.pc = pc % 2 ^ 64 ∧ (∀ j, csrValue t j = csrValue v j) ∧ ∀ k, viewByte t k = viewByte v k := by
  intro t
  obtain ⟨hr, ho, -, hc, hf⟩ := wroteReg_complete_wr v d x
  exact ⟨⟨hr, ho⟩, rfl, hc, fun k => (viewByte_congr rfl rfl (fun _ => rfl) k).trans (hf.bytes k)⟩

/-- CSRSET sets the bits of X[A], but has no effect on EVF, whose bits are cleared by ones. -/
theorem csrNew_set (n : Nat) (h : n ≠ 0x20) (old x : Word) : csrNew .set n old x = some (old ||| x) := if_neg h
theorem csrNew_set_evf (n : Nat) (h : n = 0x20) (old x : Word) : csrNew .set n old x = none := if_pos h

/-- CSRCLR clears the bits of X[A]. -/
theorem csrNew_clear (n : Nat) (h : n ≠ 0x20) (old x : Word) : csrNew .clear n old x = some (old &&& ~~~x) :=
  congrArg some (if_neg h)
theorem csrNew_clear_evf (n : Nat) (h : n = 0x20) (old x : Word) : csrNew .clear n old x = some x := congrArg some (if_pos h)

/-- What O13 says of an instruction that names a number below 0x100, and reads and writes as f says. -/
def CsrLow (s : State) (d a : Reg) (n : Nat) (i : Instr) (f : Word → Word → Option Word) : Prop :=
  let u := csrReady s n
  n < 0x100 → (csrTimed n = true → quiet u) → Answers i s fun t =>
    puts u t d (csrValue u n) ∧ follows u t ∧
    (∀ m, csrValue t m = csrValue (csrWritten u n (f (csrValue u n) (rd u a))) m) ∧ ∀ k, viewByte t k = viewByte u k

/-- What it says of one that names a number from 0x100. -/
def CsrHigh (s : State) (d a : Reg) (n : Nat) (i : Instr) (m : CsrMode) (f : Word → Word → Option Word) : Prop :=
  let u := settleSealed (closedAfter s)
  0x100 ≤ n → csrGuest s m n = false → Answers i s fun t =>
    puts u t d (csrValue u n) ∧ follows s t ∧
    (∀ j, csrValue t j = csrValue (csrWritten u n (f (csrValue u n) (rd u a))) j) ∧
    ((n = 0x213 → u.keyGen = []) → ∀ k, viewByte t k = viewByte u k)

section
variable {s : State} {c : BitVec 12} {i : Instr} {w : Nat} {m : CsrMode} {d a b : Reg} {f : Word → Word → Option Word}

/-- Below 0x100 it reads and writes in the state in which it is ready, and completes. -/
theorem csrLow_of_csrOp (ho : csrOk s c.toNat = true)
    (hm : c.toNat = 9 → ∀ x ∈ (settleSealed s).c.mat, x.tid ≠ (settleSealed s).cur)
    (hx : exec i s = csrOp w m d b c s) (hf : ∀ u old, csrNew m c.toNat old (rd u b) = f old (rd u a)) :
    CsrLow s d a c.toNat i f := by
  unfold CsrLow
  intro u hn hq
  have ha : csrAct m d b c.toNat s =
      wr (csrWritten u c.toNat (csrNew m c.toNat (csrValue u c.toNat) (rd u b))) d (csrValue u c.toNat) :=
    csrAct_eq m d b c.toNat s hm hq
  refine ⟨_, hx.trans (csrOp_low w m d b c s ho hn), ?_⟩
  rw [ha, hf]
  clear_value u
  have h := wroteReg_complete_wr (csrWritten u c.toNat (f (csrValue u c.toNat) (rd u a))) d (csrValue u c.toNat)
  refine ⟨⟨h.result, fun r hr => (h.others r hr).trans (rd_csrWritten _ _ _ _)⟩, h.next.trans ?_, h.csrs, fun k => ?_⟩
  · rw [csrWritten_pc]
  · exact (h.frame.bytes k).trans (viewByte_csrWritten _ _ _ (by omega) k)

/-- From 0x100 on it does so once its chunk and those of earlier passes have committed. -/
theorem csrHigh_of_csrOp (ho : csrOk s c.toNat = true) (hx : exec i s = csrOp w m d b c s)
    (hf : ∀ u old, csrNew m c.toNat old (rd u b) = f old (rd u a)) : CsrHigh s d a c.toNat i m f := by
  unfold CsrHigh
  intro u hn hg
  refine ⟨_, hx.trans (csrOp_high w m d b c s ho hn hg), ?_⟩
  generalize hu : settleSealed (closedAfter s) = v
  have hv : u = v := hu
  rw [hv, afterHigh, csrAct_high m d b _ v hn, hf]
  obtain ⟨⟨hr, hrs⟩, hpc, hc, hb⟩ :=
    wrote_afterWrite (csrWritten v c.toNat (f (csrValue v c.toNat) (rd v a))) d (csrValue v c.toNat) (s.t.a.pc + 4)
  exact ⟨⟨hr, fun r h => (hrs r h).trans (rd_csrWritten _ _ _ _)⟩, hpc, hc,
    fun hk k => (hb k).trans (viewByte_csrWritten _ _ _ hk k)⟩

end

/-- Settles O13: the four forms are one operation, which reads, writes as csrNew says, and puts the old value in X[D]. -/
theorem csrInstructions : Obligations.CsrInstructions := by
  unfold Obligations.CsrInstructions
  intro s d a c n ho hm
  have hr : exec (.csrrd d c) s = csrOp (encode (.csrrd d c)) .read d 0 c s := rfl
  have hw : exec (.csrwr d a c) s = csrOp (encode (.csrwr d a c)) .write d a c s := rfl
  have hs : exec (.csrset d a c) s = csrOp (encode (.csrset d a c)) .set d a c s := rfl
  have hc : exec (.csrclr d a c) s = csrOp (encode (.csrclr d a c)) .clear d a c s := rfl
  have rdLow : CsrLow s d a n (.csrrd d c) (fun _ _ => none) := csrLow_of_csrOp ho hm hr fun _ _ => rfl
  have wrLow : CsrLow s d a n (.csrwr d a c) (fun _ x => some x) := csrLow_of_csrOp ho hm hw fun _ _ => rfl
  have setLow (h : n ≠ 0x20) : CsrLow s d a n (.csrset d a c) (fun old x => some (old ||| x)) :=
    csrLow_of_csrOp ho hm hs fun _ _ => csrNew_set n h _ _
  have clearLow (h : n ≠ 0x20) : CsrLow s d a n (.csrclr d a c) (fun old x => some (old &&& ~~~x)) :=
    csrLow_of_csrOp ho hm hc fun _ _ => csrNew_clear n h _ _
  have setEvf (h : n = 0x20) : CsrLow s d a n (.csrset d a c) (fun _ _ => none) :=
    csrLow_of_csrOp ho hm hs fun _ _ => csrNew_set_evf n h _ _
  have clearEvf (h : n = 0x20) : CsrLow s d a n (.csrclr d a c) (fun _ x => some x) :=
    csrLow_of_csrOp ho hm hc fun _ _ => csrNew_clear_evf n h _ _
  have rdHigh : CsrHigh s d a n (.csrrd d c) .read (fun _ _ => none) := csrHigh_of_csrOp ho hr fun _ _ => rfl
  have wrHigh : CsrHigh s d a n (.csrwr d a c) .write (fun _ x => some x) := csrHigh_of_csrOp ho hw fun _ _ => rfl
  have setHigh (h : n ≠ 0x20) : CsrHigh s d a n (.csrset d a c) .set (fun old x => some (old ||| x)) :=
    csrHigh_of_csrOp ho hs fun _ _ => csrNew_set n h _ _
  have clearHigh (h : n ≠ 0x20) : CsrHigh s d a n (.csrclr d a c) .clear (fun old x => some (old &&& ~~~x)) :=
    csrHigh_of_csrOp ho hc fun _ _ => csrNew_clear n h _ _
  refine ⟨rdLow, fun hn ht h9 => ?_, wrLow, fun h => ⟨setLow h, clearLow h⟩, fun h => ⟨setEvf h, clearEvf h⟩, rdHigh, wrHigh,
    fun hn => setHigh (by omega) hn, fun hn => clearHigh (by omega) hn⟩
  have ha := csrAct_eq .read d 0 n s (fun h => absurd h h9) (fun h => by simp [ht] at h)
  rw [csrReady_untimed s n h9 ht] at ha
  refine ⟨_, hr.trans (csrOp_low _ .read d 0 c s ho hn), ?_⟩
  rw [ha]
  exact wroteReg_complete_wr s d (csrValue s n)

end Sys2Proof.Proofs
end

section
/-! A step of a thread that has its turn at a boundary runs the instruction at its program counter (O54). -/

set_option Elab.async false

namespace Sys2Proof.Proofs

open Sys2Proof Sys2Proof.Machine Sys2Proof.Laws

/-! ### Without a journal nothing is replayed -/

/-- With no journal nothing is replayed (R419). -/
theorem replaying_quiet (s : State) (h : quiet s) : replaying s = false := by
  unfold quiet at h
  simp [replaying, h]

/-- No record places an event at a boundary. -/
theorem eventDue_quiet (s : State) (h : quiet s) : eventDue s = none := by
  have hr : recordFor s 5 s.cur s.t.chunk.before = none := by simp [recordFor, recordsOf, replaying_quiet s h]
  unfold eventDue
  rw [hr]
  exact ite_self none

/-- What moves next is the module's own move. -/
theorem nextMove_quiet (s t y : State) (h : quiet s) (ho : ownMove s = .next t) (hp : takesPlace s t = some y) :
    nextMove s = .next y := by
  have hr := replaying_quiet s h
  unfold quiet at h
  simp [nextMove, replayHeld, replayEnds, dueArrival, hr, h, ho, hp]

/-! ### From the turn to the issue -/

/-- A thread at a boundary at which its next instruction follows: its core's clock runs, and nothing comes first (R87, R391). -/
structure AtIssue (s : State) : Prop where
  /-- No journal is kept. -/
  quiet : quiet s
  /-- The core's clock runs. -/
  relock : s.c.relock = none
  gated : s.c.gated = false
  off : s.c.off = false
  waits : s.c.waits = false
  stepHeld : s.c.stepHeld = none
  /-- The thread runs, with no pass, stall or trap that was kept for it. -/
  run : s.t.run = .running
  pass : s.t.pass = none
  stall : s.t.stall = .none
  deferred : s.t.deferred = none
  /-- Nothing closes, commits, reserves or interrupts here. -/
  dropped : s.t.dropped = false
  closes : closesHere s = false
  hit : ownHit s = false
  reserves : mustWait s = false
  preempts : preBoundary s = false
  interrupts : uiBoundary s = false

/-- Its boundary issues the instruction. -/
theorem boundary_issues (s : State) (h : AtIssue s) : boundary s = issue s := by
  have hb : byState s = issue s := by simp [byState, h.interrupts, h.run, stallWait, h.stall, after, goesOn]
  simp [boundary, h.run, h.dropped, h.closes, h.hit, h.reserves, eventDue_quiet s h.quiet, h.preempts, h.pass, h.deferred, hb]

/-- Its turn is that boundary, after which its core may wait. -/
theorem turn_issues (s : State) (h : AtIssue s) : turn s = andThen (issue s) (noteWait (coreOf s.cur)) := by
  have hc : coreAt s (coreOf s.cur) = s.c := if_pos rfl
  have hr : recordedStep s (coreOf s.cur) = s := if_pos (.inr (replaying_quiet s h.quiet))
  have hs : heldStep s (coreOf s.cur) = s := by simp [heldStep, hc, h.stepHeld]
  simp [turn, h.relock, h.gated, h.off, hr, hs, h.waits, boundary_issues s h]

/-- The instruction that is fetched runs, where its operands are there and no breakpoint is. -/
theorem issue_runs (s u : State) (w : Nat) (i : Instr) (hf : fetchControl (cyclesPass s 1) = (u, .ok w)) (hl : lateness u w = 0)
    (hb : breaksHere u = false) (hd : decode w = .ok i) : issue s = runFitting i w (issued u) := by
  simp [issue, hf, hl, hb, hd]

/-! ### What comes before the instruction -/

/-- A state in which an instruction waits that has begun. -/
def begunAt (z x : State) : State := modT x fun y => { y with begun := some z.t.a.pc }

/-- Where the instruction's own commit would undo a chunk that it rests on, that one commits first (R283). -/
theorem runFitting_undercut (i : Instr) (w : Nat) (z t : State) (hx : exec i z = .next t) (hu : undercut z t = true) :
    runFitting i w z = .next (begunAt z (if z.t.closed.isSome then commitClosed z else settleSealed z)) := by
  simp only [runFitting, hx, hu, if_true]
  rfl

/-- Where what it needs does not fit its chunk, room is made first (R275, R276). -/
theorem runFitting_full (i : Instr) (w : Nat) (z t : State) (hx : exec i z = .next t) (hu : undercut z t = false)
    (hf : fits t = false) (hc : t.cur = z.cur) : runFitting i w z = .next (begunAt z (makeRoom z t)) := by
  simp only [runFitting, hx, hu, hf, hc, bne_self_eq_false, Bool.or_self, Bool.false_eq_true, if_false]
  rfl

/-- A chunk that has begun, and can wait for no entries of others, closes. -/
theorem makeRoom_closes (z t : State) (ho : outside t = false) (hi : z.t.chunk.idle = false)
    (he : entriesFull t = true → z.t.chunk.lines ≠ []) : makeRoom z t = closeLater (bumpStat z 4 1) := by
  have hl : (entriesFull t && z.t.chunk.lines.isEmpty) = false := by
    rw [Bool.and_eq_false_iff, List.isEmpty_eq_false_iff]
    exact (Bool.eq_false_or_eq_true (entriesFull t)).symm.imp_right he
  simp only [makeRoom, ho, hl, hi, Bool.false_eq_true, if_false]

/-! ### The step -/

/-- The own move of the module is the turn of a thread that has it, off the agenda or by its place in the circle (R89). -/
theorem ownMove_turn (s : State) (l : List Due)
    (h : (s.agenda = .run s.cur :: l ∧ slotFor { s with agenda := l } s.cur = s.cur) ∨
      (s.agenda = [] ∧ l = [] ∧ slotFor s (nextLive s) = s.cur)) :
    ownMove s = turn { s with agenda := l } := by
  rcases h with ⟨ha, hs⟩ | ⟨ha, rfl, hs⟩
  · have ht : ownMove s = turnOf { s with agenda := l } s.cur := by simp only [ownMove, ha]
    rw [ht, turnOf, hs]
    exact congrArg turn (switchTo_self { s with agenda := l })
  · have ht : ownMove s = turnOf s (nextLive s) := by simp only [ownMove, ha]
    rw [ht, turnOf, hs, switchTo_self, ← ha]

/-- A move takes place as it stands, unless it came out of its turn or has marked entries of a page table. -/
theorem takesPlace_unmarked (s x : State) (ho : x.outOfTurn = false) (hm : x.marked = []) : takesPlace s x = some x := by
  simp [takesPlace, ho, settleMarks, hm]

/-- Settles O54: the step is the thread's turn, its turn the issue, and the issue the execution with what comes before it. -/
theorem stepRunsTheInstruction : Obligations.StepRunsTheInstruction := by
  unfold Obligations.StepRunsTheInstruction
  intro s u l w i t s1 z lands waits hturn hreset hq _ hrelock hgated hoff hwaits hheld hrun hpass hstall hdef hdrop hcloses hhit hmust
    hpre hui hfetch hlate hbreak hdec hexec
  have hat : AtIssue s1 := ⟨hq, hrelock, hgated, hoff, hwaits, hheld, hrun, hpass, hstall, hdef, hdrop, hcloses, hhit, hmust, hpre, hui⟩
  have hland : ∀ x, runFitting i w z = .next x → lands x := by
    intro x hx y hy
    have hmove : ownMove s = .next (noteWait (coreOf s.cur) x) := by
      rw [ownMove_turn s l hturn, turn_issues s1 hat, issue_runs s1 u w i hfetch hlate hbreak hdec, hx]
      rfl
    simp only [step, hreset, Bool.false_eq_true, if_false]
    exact nextMove_quiet s _ y hq hmove hy
  refine ⟨fun hu hf => hland _ (runFitting_fits i w z t hexec hu hf), fun hu hf hc hi ho he => hland _ ?_,
    fun hu => hland _ (runFitting_undercut i w z t hexec hu), takesPlace_unmarked s⟩
  rw [runFitting_full i w z t hexec hu hf hc, makeRoom_closes z t ho hi he]
  rfl

end Sys2Proof.Proofs
end

section
/-! What a write leaves in each CSR (O14). -/

set_option Elab.async false

namespace Sys2Proof.Proofs

open Sys2Proof Sys2Proof.Machine Sys2Proof.Laws

/-! ### Fields of a word -/

/-- The low bits of a word are a field that nothing precedes. -/
theorem fld_low (x : Word) (k : Nat) : fld x 0 k = x.toNat % 2 ^ k := by
  unfold fld
  rw [Nat.pow_zero, Nat.div_one]

/-- A register of k bits reads as the low bits of what has been written. -/
theorem setWidth_setWidth_word (x : Word) (k : Nat) : (x.setWidth k).setWidth 64 = BitVec.ofNat 64 (x.toNat % 2 ^ k) := by
  apply BitVec.eq_of_toNat_eq
  simp only [BitVec.toNat_setWidth, BitVec.toNat_ofNat]

/-- What is kept of a word from bit 0 up is a number of that many bits. -/
theorem wd_fld_low (x : Word) (hi : Nat) : wd (fld x 0 (hi + 1)) = keep x hi 0 := by
  unfold keep
  rw [Nat.pow_zero, Nat.mul_one]
  rfl

/-- And so is what a register of that many bits reads as. -/
theorem setWidth_setWidth_keep (x : Word) (hi : Nat) : (x.setWidth (hi + 1)).setWidth 64 = keep x hi 0 := by
  rw [setWidth_setWidth_word, ← wd_fld_low, fld_low]
  rfl

/-- Bits 51 to lo of an address are the address below 2^52, rounded down. -/
theorem keep_51 (x : Word) (lo : Nat) (h : lo ≤ 52) : keep x 51 lo = BitVec.ofNat 64 (x.toNat / 2 ^ lo * 2 ^ lo % 2 ^ 52) := by
  have hp : (2 ^ 52 : Nat) = 2 ^ (52 - lo) * 2 ^ lo := by rw [← Nat.pow_add, Nat.sub_add_cancel h]
  rw [hp, Nat.mul_mod_mul_right]
  rfl

/-- A mask of k ones from bit lo on keeps that field. -/
theorem and_ones_shifted (n lo k : Nat) : n &&& (2 ^ k - 1) * 2 ^ lo = n / 2 ^ lo % 2 ^ k * 2 ^ lo := by
  apply Nat.eq_of_testBit_eq
  intro i
  simp only [Nat.testBit_and, Nat.testBit_mul_two_pow, Nat.testBit_two_pow_sub_one, Nat.testBit_mod_two_pow, Nat.testBit_div_two_pow]
  by_cases h : lo ≤ i
  · simp [h, Bool.and_comm]
  · simp [h]

/-! ### The user registers -/

/-- FCTL takes FTZ, and RM where it is not reserved (R78). -/
theorem putFctl_fctl (x : Word) (a : Arch) : (putFctl x a).fctl.setWidth 64 =
    BitVec.ofNat 64 (8 * (x.toNat / 8 % 2) + if x.toNat % 8 ≤ 4 then x.toNat % 8 else a.fctl.toNat % 8) := by
  have hrm : fld x 0 3 = x.toNat % 8 := fld_low x 3
  have hftz : fld x 3 1 = x.toNat / 8 % 2 := rfl
  apply BitVec.eq_of_toNat_eq
  simp only [putFctl, hrm, hftz, BitVec.toNat_setWidth, BitVec.toNat_ofNat]
  split <;> omega

/-- CMPTHR takes a threshold up to 16 (R222). -/
theorem putCmpthr_cmpthr (x : Word) (a : Arch) : (putCmpthr x a).cmpthr.setWidth 64 =
    if x.toNat % 32 ≤ 16 then BitVec.ofNat 64 (x.toNat % 32) else a.cmpthr.setWidth 64 := by
  have hf : fld x 0 5 = x.toNat % 32 := fld_low x 5
  unfold putCmpthr
  rw [hf]
  split
  · apply BitVec.eq_of_toNat_eq
    simp only [BitVec.toNat_setWidth, BitVec.toNat_ofNat]
    omega
  · rfl

/-- CHKLIM: LIM takes a limit from 1 to 4,096, and any other value as 4,096; EFF takes it from the next chunk on (R292). -/
theorem putChklim_fields (x : Word) (a : Arch) :
    (putChklim x a).chkEff = a.chkEff ∧
    (putChklim x a).chkLim = (if x.toNat % 8192 = 0 ∨ 4096 < x.toNat % 8192 then 4096 else x.toNat % 8192) ∧
    (putChklim x a).chkNext = some (putChklim x a).chkLim := by
  have hf : fld x 0 13 = x.toNat % 8192 := fld_low x 13
  refine ⟨rfl, ?_, rfl⟩
  simp only [putChklim, hf]

/-- EVF: ones clear DONE, and from bit 16 on FAULT (R254, R261). -/
theorem clearEvf_bits (x : Word) (a : Arch) (j : Nat) (hj : j < 16) :
    (clearEvf x a).done.getLsbD j = (a.done.getLsbD j && !x.getLsbD j) ∧
    (clearEvf x a).efault.getLsbD j = (a.efault.getLsbD j && !x.getLsbD (16 + j)) := by
  have hd : (x.setWidth 16).getLsbD j = x.getLsbD j := by simp [hj]
  have hf : (BitVec.ofNat 16 (fld x 16 16)).getLsbD j = x.getLsbD (16 + j) := by
    simp only [fld, BitVec.getLsbD_ofNat, Nat.testBit_mod_two_pow, Nat.testBit_div_two_pow, hj, decide_true, Bool.true_and]
    rw [Nat.add_comm]
    rfl
  simp only [clearEvf, BitVec.getLsbD_and, BitVec.getLsbD_not, hd, hf, hj, decide_true, Bool.true_and, and_self]

/-- VRS01 and VRS23 take two restart indices of 31 bits (R219). -/
theorem putVrs_vrs (high : Bool) (x : Word) (a : Arch) : (putVrs high x a).vrs =
    if high then #v[a.vrs[0], a.vrs[1], x.toNat % 2 ^ 31, x.toNat / 2 ^ 32 % 2 ^ 31]
    else #v[x.toNat % 2 ^ 31, x.toNat / 2 ^ 32 % 2 ^ 31, a.vrs[2], a.vrs[3]] := by
  have hhi : fld x 32 31 = x.toNat / 2 ^ 32 % 2 ^ 31 := rfl
  cases high
  · simp only [putVrs, fld_low, hhi, Bool.false_eq_true, if_false]
  · simp only [putVrs, fld_low, hhi, if_true]

/-- CAPBASE and CAPSIZE take bits 51 to 12, but not at U (R152). -/
theorem putUser_capArea (lvl : Level) (x : Word) (a : Arch) :
    (putUser lvl 0x40 x a).capBase = (if lvl = .u then a.capBase else keep x 51 12) ∧
    (putUser lvl 0x41 x a).capSize = (if lvl = .u then a.capSize else keep x 51 12) := by
  cases lvl
  case u => exact ⟨rfl, rfl⟩
  case s => exact ⟨rfl, rfl⟩
  case h => exact ⟨rfl, rfl⟩

/-! ### The system registers -/

/-- TSTATUS and HSTATUS take their bits from lo to 7, and PPL where it is a level up to a limit (R386). -/
theorem putStatus_value (x : Word) (old : BitVec 8) (lo lim : Nat) (hl : 2 ≤ lo) (hh : lo ≤ 8) :
    (putStatus ((2 ^ (8 - lo) - 1) * 2 ^ lo) lim x old).setWidth 64 =
      keep x 7 lo ||| BitVec.ofNat 64 (if x.toNat % 4 ≤ lim then x.toNat % 4 else old.toNat % 4) := by
  have hp : 2 ^ lo * 2 ^ (8 - lo) = 256 := (Nat.pow_add 2 lo (8 - lo)).symm.trans (congrArg (2 ^ ·) (Nat.add_sub_cancel' hh))
  have hppl : fld x 0 2 = x.toNat % 4 := fld_low x 2
  have hkeep : keep x 7 lo = BitVec.ofNat 64 (x.toNat / 2 ^ lo % 2 ^ (8 - lo) * 2 ^ lo) := rfl
  have hmask : x.toNat % 256 &&& (2 ^ (8 - lo) - 1) * 2 ^ lo = x.toNat / 2 ^ lo % 2 ^ (8 - lo) * 2 ^ lo := by
    rw [and_ones_shifted, ← hp, Nat.mod_mul_right_div_self, Nat.mod_mod]
  have hq : x.toNat / 2 ^ lo % 2 ^ (8 - lo) < 2 ^ (8 - lo) := Nat.mod_lt _ (Nat.two_pow_pos _)
  simp only [putStatus, hkeep, hmask, hppl]
  generalize x.toNat / 2 ^ lo % 2 ^ (8 - lo) = q at hq
  generalize hr : (if x.toNat % 4 ≤ lim then x.toNat % 4 else old.toNat % 4) = ppl
  have hlow : ppl < 2 ^ lo := by
    have h4 : 2 ^ 2 ≤ 2 ^ lo := Nat.pow_le_pow_right (by decide) hl
    split at hr <;> omega
  have hfit : q * 2 ^ lo + ppl < 256 := by
    have hle : (q + 1) * 2 ^ lo ≤ 256 := Nat.le_trans (Nat.mul_le_mul_right _ hq) (Nat.le_of_eq ((Nat.mul_comm _ _).trans hp))
    rw [Nat.add_one_mul] at hle
    omega
  rw [← BitVec.ofNat_or, Nat.mul_comm q, ← Nat.two_pow_add_eq_or_of_lt hlow, Nat.mul_comm]
  apply BitVec.eq_of_toNat_eq
  simp only [BitVec.toNat_setWidth, BitVec.toNat_ofNat]
  omega

/-- A write of CTXBASE sets every dirty bit and changes no value (R394). -/
theorem dirtyAll_dirty (a : Arch) :
    (∀ r : Reg, ((dirtyAll a).v[r.toNat]'(r.isLt)).dirty = true ∧ vreg (dirtyAll a) r = vreg a r) ∧
    ∀ (j : Nat) (h : j < 8), ((dirtyAll a).m[j]'h).dirty = true := by
  constructor
  · intro r
    simp [dirtyAll, vreg]
  · intro j h
    simp [dirtyAll]

/-! ### What is not written -/

/-- The numbers that a write can change (R51, R52). -/
def csrWritable : List Nat :=
  [1, 2, 8, 9, 0xA, 0xB, 0x10, 0x20, 0x21, 0x22, 0x23, 0x40, 0x41, 0x100, 0x101, 0x102, 0x103, 0x110, 0x111, 0x120, 0x121,
    0x200, 0x201, 0x202, 0x203, 0x210, 0x211, 0x212, 0x213]

/-- A write of any other changes nothing (R4, R50). -/
theorem csrPut_readOnly (s : State) (n : Nat) (x : Word) (h : n ∉ csrWritable) : csrPut s n x = s := by
  simp only [csrWritable, List.mem_cons, List.not_mem_nil, or_false, not_or] at h
  have hu : putUser s.t.lvl n x s.t.a = s.t.a := by simp [putUser, h]
  have hs : putSystem n x s.t = s.t := by simp [putSystem, h]
  simp [csrPut, h, modA, modT, hu, hs]

/-- Settles O14: what each register's own write leaves, and nothing where it has none. -/
theorem csrFields : Obligations.CsrFields := by
  unfold Obligations.CsrFields
  refine ⟨fun s x => ?_, fun s x => ?_⟩
  · intro n at51
    have h2 : keep x 51 2 = at51 2 := keep_51 x 2 (by decide)
    have h12 : keep x 51 12 = at51 12 := keep_51 x 12 (by decide)
    obtain ⟨heff, hlim, hnext⟩ := putChklim_fields x s.t.a
    obtain ⟨hbase, hsize⟩ := putUser_capArea s.t.lvl x s.t.a
    rw [h12] at hbase hsize
    have timed : ∀ i, 0x60 ≤ i → i < 0x80 → csrPut s i x = s := fun i hl hh => csrPut_readOnly s i x (by
      simp only [csrWritable, List.mem_cons, List.not_mem_nil, or_false]; omega)
    exact ⟨putFctl_fctl x s.t.a, setWidth_setWidth_word x 6, setWidth_setWidth_word x 2,
      putCmpthr_cmpthr x s.t.a, heff, hlim, hnext, clearEvf_bits x s.t.a, h2, h2, rfl, rfl,
      hbase, hsize, putVrs_vrs false x s.t.a, putVrs_vrs true x s.t.a, timed,
      fun i hi => csrPut_readOnly s i x ((by decide : ∀ i ∈ _, i ∉ csrWritable) i hi)⟩
  · intro n bits
    obtain ⟨hv, hm⟩ := dirtyAll_dirty s.t.a
    exact ⟨rfl, rfl, setWidth_setWidth_keep x 7, rfl, rfl, rfl, setWidth_setWidth_keep x 15, rfl, rfl, setWidth_setWidth_keep x 7,
      wd_fld_low x 5, wd_fld_low x 12, rfl, rfl, putStatus_value x s.t.tstatus 5 1 (by decide) (by decide),
      putStatus_value x s.t.hstatus 4 2 (by decide) (by decide),
      fun i hi => csrPut_readOnly s i x ((by decide : ∀ i ∈ _, i ∉ csrWritable) i hi), fun r => (hv r).1, fun k => hm k.toNat k.isLt⟩

end Sys2Proof.Proofs
end

section
/-! Accesses that wait for a pass, the registers that they write, and a sample of the trace (O53). -/

set_option Elab.async false

namespace Sys2Proof.Proofs

open Sys2Proof Sys2Proof.Machine Sys2Proof.Laws

/-! ### Acting as a thread -/

/-- What acts as a thread, and then gives the turn back. -/
theorem actsAs_onThread {tid : Nat} {i : Instr} {s : State} {P : State → State → Prop} (f : State → State)
    (hx : exec i s = .next (onThread s tid f)) (hp : P (switchTo s tid) (f (switchTo s tid))) : ActsAs tid i s P :=
  ⟨f (switchTo s tid), hx, hp⟩

/-- An access acts at once where no pass is in flight and the core is up (R83, R134). -/
theorem afterPass_idle (s : State) (tid : Nat) (i : Instr) (f : State → State) (hp : (threadAt s tid).pass = none)
    (hc : coreUp s (coreOf tid)) : afterPass s tid i f = onThread s tid f := by
  obtain ⟨hr, ho, hw, hg⟩ := hc
  rw [afterPass, arriveAt_running s _ i _ hw hg hr ho, hp]
  rfl

theorem actsAs_afterPass {tid : Nat} {i : Instr} {s : State} {P : State → State → Prop} (f : State → State)
    (hpass : (switchTo s tid).t.pass = none) (hc : coreUp s (coreOf tid)) (hx : exec i s = .next (afterPass s tid i f))
    (hp : P (switchTo s tid) (f (switchTo s tid))) : ActsAs tid i s P := by
  rw [switchTo_t] at hpass
  rw [afterPass_idle s tid i f hpass hc] at hx
  exact actsAs_onThread f hx hp

/-! ### What the writes leave -/

/-- A change of the architected state that is taken back leaves all as it was. -/
theorem modA_modA_cancel (u : State) (f g : Arch → Arch) (h : g (f u.t.a) = u.t.a) : modA (modA u f) g = u :=
  congrArg (fun a => modA u fun _ => a) h

/-- CAPBASE or CAPSIZE takes bits 51 to 12, and nothing else changes (R152). -/
theorem putCapArea_fields (size : Bool) (x : Word) (a : Arch) :
    (if size then (putCapArea size x a).capSize else (putCapArea size x a).capBase) = keep x 51 12 ∧
    { putCapArea size x a with capSize := a.capSize, capBase := a.capBase } = a := by
  cases size
  case false => exact ⟨rfl, rfl⟩
  case true => exact ⟨rfl, rfl⟩

/-- A write of VRS01 or VRS23 changes the restart indices alone (R219). -/
theorem putVrs_rest (high : Bool) (x : Word) (a : Arch) : { putVrs high x a with vrs := a.vrs } = a := by
  cases high
  case false => rfl
  case true => rfl

/-- A write of CTXBASE in the state: the register, and every dirty bit with the values as they were (R394). -/
theorem putCtxbase_fields (x : Word) (t : Thread) :
    (putCtxbase x t).ctxbase = keep x 51 12 ∧
    (∀ r : Reg, (((putCtxbase x t).a.v[r.toNat]'(r.isLt)).dirty = true ∧ vreg (putCtxbase x t).a r = vreg t.a r)) ∧
    ∀ j : Fin 7, ((putCtxbase x t).a.m[j]).dirty = true := by
  obtain ⟨hv, hm⟩ := dirtyAll_dirty t.a
  exact ⟨rfl, hv, fun j => hm j (by omega)⟩

/-- CHKLIM's own fields are all that its write changes. -/
theorem keeps_putChklim (u : State) (x : Word) : Keeps [.chklim] u (modA u (putChklim x)) := keeps_of _ _ _ (by decide) rfl

/-- EVF is all that its write changes. -/
theorem keeps_clearEvf (u : State) (x : Word) : Keeps [.events] u (modA u (clearEvf x)) := keeps_of _ _ _ (by decide) rfl

/-! ### The sample of the trace (R415) -/

/-- Doubleword 0 of a record: its type in bits 63 to 58, and the program counter below bit 52. -/
theorem traceWord_fields (ty thr lvl pc : Nat) (pass : Bool) (hty : ty < 64) (hthr : thr < 2) (hlvl : lvl < 4) :
    let d0 := wd (ty * 2 ^ 58 + thr * 2 ^ 57 + lvl * 2 ^ 55 + b2n pass * 2 ^ 54 + pc % 2 ^ 52)
    d0.toNat / 2 ^ 58 = ty ∧ d0.toNat % 2 ^ 52 = pc % 2 ^ 52 := by
  have hb : b2n pass < 2 := by cases pass <;> decide
  simp only [wd, BitVec.toNat_ofNat]
  omega

/-- A record that FILTER takes, of a thread below H, enters the ring with the time of its core (R414 to R416). -/
theorem traceRec_taken (u : State) (ty : Nat) (pass : Bool) (pc : Nat) (x y : Word) (hl : u.t.lvl ≠ .h) (hty : ty < 64)
    (hf : (devGet u (paDebug u.cur 0x48)).getLsbD ty = true) :
    (∃ r : TraceRec, (traceRec u ty pass pc x y).c.ring = spPut u.c.ring u.c.ringNext r ∧ r.d0.toNat / 2 ^ 58 = ty ∧
      r.d0.toNat % 2 ^ 52 = pc % 2 ^ 52 ∧ r.d1 = u.c.cyc ∧ r.d2 = x ∧ r.d3 = y) ∧
    (traceRec u ty pass pc x y).c.ringNext = (u.c.ringNext + 1) % 512 := by
  have hbit : bitAt (devGet u (paDebug u.cur 0x48)).toNat ty = true := by
    rw [bitAt, ← Nat.testBit_eq_decide_div_mod_eq]
    exact hf
  have hthr : (if isSteward u.cur then 0 else u.cur % 2) < 2 := by split <;> omega
  have hlvl : u.t.lvl.code < 4 := by cases u.t.lvl <;> decide
  obtain ⟨htype, hpc⟩ := traceWord_fields ty _ _ pc pass hty hthr hlvl
  unfold traceRec traceAt
  rw [if_neg hl, if_neg (by simp [hbit])]
  exact ⟨⟨_, rfl, htype, hpc, rfl, rfl, rfl⟩, rfl⟩

/-- A record changes the ring alone. -/
theorem keeps_traceRec (u : State) (ty : Nat) (pass : Bool) (pc : Nat) (x y : Word) : Keeps [.trace] u (traceRec u ty pass pc x y) := by
  obtain ⟨ring, n, laps, h⟩ := traceRec_cases u ty pass pc x y
  rw [h]
  exact keeps_of _ _ _ (by decide) rfl

/-- With no pass in flight the group pointers of a sample are 0. -/
theorem sample_idle (u : State) (hp : u.t.pass = none) : sample u = traceRec u 8 false u.t.a.pc 0 0 := by
  simp only [sample, groupPointers, hp]
  rfl

/-- Settles O53: an access acts in the thread's own state, as its write does, and gives the turn back. -/
theorem threadEventsAct : Obligations.ThreadEventsAct := by
  unfold Obligations.ThreadEventsAct
  intro s tid i value b u v hpass hup
  have hcap : exec (.capAreaWrite tid b value) s =
      .next (afterPass s tid (.capAreaWrite tid b value) fun s => if s.t.lvl = .u then s else modA s (putCapArea b value)) := rfl
  have hctx : exec (.ctxbaseWrite tid value) s =
      .next (onThread s tid fun s => if s.t.lvl = .u then s else modT s (putCtxbase value)) := rfl
  have hsample : exec (.traceSample tid) s =
      .next (onThread s tid fun s => if fld (devGet s (paDebug tid 0x48)) 32 16 = 0 then s else sample s) := rfl
  have hcur : u.cur = tid := switchTo_cur s tid
  refine ⟨fun hm => ?_, fun hl => ⟨?_, ?_⟩, fun hl => ⟨?_, ?_⟩, ?_, ?_, ?_, ?_, fun hz => ?_, ?_⟩
  · exact actsAs_afterPass _ hpass hup rfl (drainMatrix_idle v hm)
  · exact actsAs_afterPass _ hpass hup hcap (if_pos hl)
  · exact actsAs_onThread _ hctx (if_pos hl)
  · refine actsAs_afterPass _ hpass hup hcap ?_
    rw [if_neg hl]
    obtain ⟨hfield, hrest⟩ := putCapArea_fields b value u.t.a
    exact ⟨hfield, modA_modA_cancel u _ _ hrest⟩
  · refine actsAs_onThread _ hctx ?_
    rw [if_neg hl]
    exact putCtxbase_fields value u.t
  · exact actsAs_afterPass _ hpass hup rfl ⟨putVrs_vrs b value u.t.a, modA_modA_cancel u _ _ (putVrs_rest b value u.t.a)⟩
  · obtain ⟨heff, hlim, hnext⟩ := putChklim_fields value u.t.a
    exact actsAs_onThread _ rfl ⟨heff, hnext, hlim, keeps_putChklim u value⟩
  · exact actsAs_onThread _ rfl ⟨keeps_clearEvf u value, rfl, clearEvf_bits value u.t.a⟩
  · exact actsAs_afterPass _ hpass hup rfl rfl
  · rw [hcur] at hz
    exact actsAs_onThread _ hsample (if_pos hz)
  · intro c hn _ hl hf
    refine actsAs_onThread _ hsample ?_
    have hn' : fld (devGet u (paDebug tid 0x48)) 32 16 ≠ 0 := hcur ▸ hn
    rw [if_neg hn']
    rw [sample_idle u hpass]
    obtain ⟨hrec, hnext⟩ := traceRec_taken u 8 false u.t.a.pc 0 0 hl (by decide) hf
    exact ⟨hrec, hnext, keeps_traceRec u 8 false u.t.a.pc 0 0⟩

end Sys2Proof.Proofs
end

section
/-! The vector length and the share that goes with it (O18): what the end of matrix steps and a new share leave as they were. -/

set_option Elab.async false

namespace Sys2Proof.Proofs

open Sys2Proof Sys2Proof.Machine Sys2Proof.Laws

/-! ### The end of the thread's matrix steps -/

/-- A row's prior contents go to a chunk, not to the architected state (R226). -/
theorem logRow_a (t : Thread) (num g : Nat) (old : List (BitVec 32)) : (logRow t num g old).a = t.a := by
  unfold logRow
  dsimp only
  split
  · rfl
  · split
    · split <;> rfl
    · rfl

/-- Flags raised by the work of a chunk reach FSTAT alone of the architected state (R79, R234). -/
theorem raiseFrom_a (t : Thread) (num : Nat) (f : BitVec 6) : (raiseFrom t num f).a = { t.a with fstat := t.a.fstat ||| f } := rfl

/-- Of one thread at two times: it has the turn at both, and of its architected state FSTAT alone may differ. -/
structure SameButFstat (s t : State) : Prop where
  /-- The thread. -/
  cur : t.cur = s.cur
  /-- All but FSTAT. -/
  arch : t.t.a = { s.t.a with fstat := t.t.a.fstat }

namespace SameButFstat

theorem refl (s : State) : SameButFstat s s := ⟨rfl, rfl⟩

theorem trans {s t u : State} (h : SameButFstat s t) (k : SameButFstat t u) : SameButFstat s u :=
  ⟨k.cur.trans h.cur, by rw [k.arch, h.arch]⟩

theorem rd_eq {s t : State} (h : SameButFstat s t) (r : Reg) : rd t r = rd s r := by
  unfold rd
  rw [h.arch]

theorem pc_eq {s t : State} (h : SameButFstat s t) : t.t.a.pc = s.t.a.pc := by rw [h.arch]
theorem vlLen_eq {s t : State} (h : SameButFstat s t) : t.t.a.vlLen = s.t.a.vlLen := by rw [h.arch]
theorem vlGrant_eq {s t : State} (h : SameButFstat s t) : t.t.a.vlGrant = s.t.a.vlGrant := by rw [h.arch]

end SameButFstat

/-- A matrix step that ends reaches FSTAT at most, whether its check passes or not (R233, R242). -/
theorem sameButFstat_finishStep (s : State) (m : MatStep) : SameButFstat s (finishStep s m) := by
  unfold finishStep
  split
  · exact .refl s
  · split
    · refine ⟨rfl, ?_⟩
      simp only [writeStep, modT, raiseFrom_a, logRow_a]
    · exact ⟨rfl, rfl⟩

/-- So do all of the thread's steps. -/
theorem sameButFstat_drainMatrix (s : State) : SameButFstat s (drainMatrix s) := by
  have hfold (l : List MatStep) : ∀ u, SameButFstat u (l.foldl finishStep u) := by
    induction l with
    | nil => exact .refl
    | cons m l ih => exact fun u => (sameButFstat_finishStep u m).trans (ih _)
  exact hfold _ s

/-! ### A new share -/

/-- The clusters that a thread takes are the lane allocation's alone (R101). -/
theorem shareClusters_eq (s : State) :
    ∃ lc next, shareClusters s = { s with c := { s.c with lc := lc, lcNext := next } } := by
  unfold shareClusters
  split
  · exact ⟨s.c.lc, s.c.lcNext, rfl⟩
  · exact ⟨_, _, rfl⟩

/-- A new holding moves tile rows and the errors that they hold (R101, R243). -/
theorem setHolding_eq (c : Core) (ct n : Nat) :
    ∃ tr0 tr1 tiles bad, setHolding c ct n = { c with tr0 := tr0, tr1 := tr1, tiles := tiles, bad := bad } := by
  unfold setHolding
  split
  · exact ⟨n, c.tr1, _, _, rfl⟩
  · exact ⟨c.tr0, n, _, _, rfl⟩

/-- Once the thread's matrix steps are over, a renegotiation reaches the share alone (R101, R225). -/
theorem erased_share_renegotiate (s : State) (h : onComputeCore s) :
    erased [.share] (renegotiate s) = erased [.share] (drainMatrix s) := by
  have hs : ¬isSteward s.cur = true := by rw [h]; decide
  obtain ⟨lc, next, hc⟩ := shareClusters_eq (drainMatrix s)
  unfold renegotiate
  rw [if_neg hs]
  dsimp only
  rw [hc]
  obtain ⟨tr0, tr1, tiles, bad, hr⟩ := setHolding_eq { (drainMatrix s).c with lc := lc, lcNext := next } ((drainMatrix s).cur % 2)
    (newHolding (drainMatrix s))
  rw [hr]
  rfl

/-- States that agree but for the share have one thread at its turn, with one architected state. -/
theorem sameButFstat_of_share {s t : State} (h : erased [.share] t = erased [.share] s) : SameButFstat s t := by
  have hcur : (erased [.share] t).cur = (erased [.share] s).cur := by rw [h]
  have harch : (erased [.share] t).t.a = (erased [.share] s).t.a := by rw [h]
  have harch' : t.t.a = s.t.a := harch
  exact ⟨hcur, by rw [harch']⟩

/-- A renegotiation reaches none of the architected state but FSTAT, by the steps that it waits for. -/
theorem sameButFstat_renegotiate (s : State) (h : onComputeCore s) : SameButFstat s (renegotiate s) :=
  (sameButFstat_drainMatrix s).trans (sameButFstat_of_share (erased_share_renegotiate s h))

/-! ### The instruction -/

/-- The grant in both fields of VL and in X[D], before the share is renegotiated (R192). -/
def granted (s : State) (d : Reg) (g : Nat) : State :=
  wr (modA s fun r => { r with vlGrant := g, vlLen := g }) d (BitVec.ofNat 64 g)

theorem exec_vsetl (s : State) (d a : Reg) (h : onComputeCore s) :
    exec (.vsetl d a) s = .next (complete (renegotiate (granted s d (min (rd s a).toNat (2 ^ 31 - 1))))) :=
  congrArg Host.Outcome.next (onCompute_core s _ _ h)

/-- X[D] takes the grant, and no other register changes. -/
theorem puts_granted (s : State) (d : Reg) (g : Nat) : puts s (granted s d g) d (BitVec.ofNat 64 g) := by
  refine ⟨?_, fun r hr => rd_wr_other _ d r _ hr⟩
  split
  · next hd => rw [hd]; rfl
  · next hd => exact rd_wr_same _ d _ hd

/-- A grant is X[D]'s and VL's alone. -/
theorem erased_granted (s : State) (d : Reg) (g : Nat) : erased [.x, .vl] (granted s d g) = erased [.x, .vl] s := by
  unfold granted wr
  split <;> rfl

/-- After the thread's matrix steps, the program counter, the chunk's count and the share are all that the renegotiation and the
completion reach. -/
theorem keeps_complete_renegotiate (u : State) (h : onComputeCore u) :
    Keeps [.pc, .count, .share] (drainMatrix u) (complete (renegotiate u)) :=
  keeps_of _ _ _ (by decide) (congrArg (erased [.pc, .count]) (erased_share_renegotiate u h))

/-- The parts of a VSETL may be erased in any order. -/
theorem erased_vsetl (s : State) :
    erased [.x, .pc, .count, .vl, .share] s = erased [.x, .vl] (erased [.pc, .count, .share] s) ∧
      erased [.x, .pc, .count, .vl, .share] s = erased [.pc, .count, .share] (erased [.x, .vl] s) := ⟨rfl, rfl⟩

/-- What keeps all but the share and the count from the grant on keeps all but X[D] and VL besides from before it. -/
theorem keeps_of_granted {s t : State} {d : Reg} {g : Nat} (h : Keeps [.pc, .count, .share] (granted s d g) t) :
    Keeps [.x, .pc, .count, .vl, .share] s t := by
  refine keeps_of _ _ _ (by decide) ?_
  calc erased [.x, .pc, .count, .vl, .share] t
      = erased [.x, .vl] (erased [.pc, .count, .share] t) := (erased_vsetl t).1
    _ = erased [.x, .vl] (erased [.pc, .count, .share] (granted s d g)) := by rw [h.rest]
    _ = erased [.x, .pc, .count, .vl, .share] (granted s d g) := (erased_vsetl _).1.symm
    _ = erased [.pc, .count, .share] (erased [.x, .vl] (granted s d g)) := (erased_vsetl _).2
    _ = erased [.pc, .count, .share] (erased [.x, .vl] s) := by rw [erased_granted]
    _ = erased [.x, .pc, .count, .vl, .share] s := (erased_vsetl s).2.symm

/-- Settles O18: the grant is written first, and what follows it reaches neither register, nor VL, nor, but for the end of the thread's
matrix steps, anything outside the share. -/
theorem vectorLength : Obligations.VectorLength := by
  unfold Obligations.VectorLength
  intro s d a g hcore
  let u := granted s d g
  have hcur : u.cur = s.cur := wr_cur _ _ _
  have hu : onComputeCore u := by rw [onComputeCore, hcur]; exact hcore
  have hsame := sameButFstat_renegotiate u hu
  have hkeeps := keeps_complete_renegotiate u hu
  obtain ⟨hdest, hothers⟩ := puts_granted s d g
  refine answers_of _ s _ _ (exec_vsetl s d a hcore) ⟨?_, ?_, ⟨?_, ?_⟩, ?_, hkeeps, fun hidle => ?_⟩
  · exact hsame.vlLen_eq.trans (wr_a_vlLen _ _ _)
  · exact hsame.vlGrant_eq.trans (wr_a_vlGrant _ _ _)
  · exact (hsame.rd_eq d).trans hdest
  · exact fun r hr => (hsame.rd_eq r).trans (hothers r hr)
  · have hpc : (renegotiate u).t.a.pc = s.t.a.pc := hsame.pc_eq.trans (wr_a_pc _ _ _)
    exact (complete_pc _).trans (congrArg (fun p => (p + 4) % 2 ^ 64) hpc)
  · have hmat : u.c.mat = s.c.mat := congrArg Core.mat (wr_c _ _ _)
    have hdrain : drainMatrix u = u := drainMatrix_idle u (by rw [hmat, hcur]; exact hidle)
    rw [hdrain] at hkeeps
    exact keeps_of_granted hkeeps

end Sys2Proof.Proofs
end

section
/-! The load of a weight slot (O24): what a commit leaves of the thread whose chunk it is, the wait for a slot, and the tile that enters one. -/

set_option Elab.async false

namespace Sys2Proof.Proofs

open Sys2Proof Sys2Proof.Machine Sys2Proof.Laws

/-! ### What reaches no thread -/

/-- The same thread has the turn, and no thread has changed. -/
structure SameThreads (s t : State) : Prop where
  cur : t.cur = s.cur
  moves : t.t = s.t
  others : t.threads = s.threads

namespace SameThreads

theorem refl (s : State) : SameThreads s s := ⟨rfl, rfl, rfl⟩

theorem trans {s t u : State} (h : SameThreads s t) (k : SameThreads t u) : SameThreads s u :=
  ⟨k.cur.trans h.cur, k.moves.trans h.moves, k.others.trans h.others⟩

theorem foldl {α : Type} {f : State → α → State} (h : ∀ s x, SameThreads s (f s x)) (l : List α) (s : State) :
    SameThreads s (l.foldl f s) := by
  induction l generalizing s with
  | nil => exact .refl s
  | cons x l ih => exact (h s x).trans (ih _)

end SameThreads

/-- A write of memory reaches no thread. -/
theorem sameThreads_pokeByte (s : State) (k : Nat) (b : Byte) : SameThreads s (pokeByte s k b) := by
  unfold pokeByte renewLine
  dsimp only
  split
  · exact ⟨rfl, rfl, rfl⟩
  · exact ⟨rfl, rfl, rfl⟩

/-- Nor do writes of many bytes. -/
theorem sameThreads_pokeAll (l : List (Nat × Byte)) : ∀ s, SameThreads s (pokeAll s l) := by
  induction l with
  | nil => exact .refl
  | cons e l ih => exact fun s => (sameThreads_pokeByte s e.1 e.2).trans (ih (pokeByte s e.1 e.2))

/-- Nor does a record of the journal. -/
theorem sameThreads_journal (s : State) (kind slice agent num : Nat) (l : List Word) :
    SameThreads s (journal s kind slice agent num l) := by
  unfold journal
  split
  · exact .refl s
  · dsimp only
    split
    all_goals
      generalize keyed _ _ = bytes
      have h := sameThreads_pokeAll bytes s
      exact ⟨h.cur, h.moves, h.others⟩

/-- Nor does a record that a replay uses up. -/
theorem sameThreads_consume (s : State) (r : JRec) : SameThreads s (consume s r) := ⟨rfl, rfl, rfl⟩

/-- Nor do the records of what a chunk has obtained. -/
theorem sameThreads_settleRecs (s : State) (agent : Nat) (c : Chunk) : SameThreads s (settleRecs s agent c) := by
  refine SameThreads.foldl (fun s r => ?_) _ s
  split
  · exact sameThreads_consume s _
  · exact sameThreads_journal s _ _ _ _ _

/-- Nor do a chunk's grants. -/
theorem sameThreads_takeGrants (s : State) (agent num : Nat) (own spare : List Nat) (ext : List Word) :
    SameThreads s (takeGrants s agent num own spare ext) := by
  unfold takeGrants
  split
  · exact .foldl (fun s sl => sameThreads_journal s _ sl _ _ _) _ s
  · dsimp only
    split
    · exact ⟨rfl, rfl, rfl⟩
    · split
      · exact ⟨rfl, rfl, rfl⟩
      · split
        · exact ⟨rfl, rfl, rfl⟩
        · exact .foldl sameThreads_consume _ s

/-- Nor does a record for an error queue. -/
theorem sameThreads_sendRecord (s : State) (q lo hi : Word) : SameThreads s (sendRecord s q lo hi) := by
  unfold sendRecord
  dsimp only
  split <;> exact ⟨rfl, rfl, rfl⟩

/-- Nor does a counter that is lowered. -/
theorem sameThreads_lowerCounter (s : State) (i : Nat) : SameThreads s (lowerCounter s i) := by
  unfold lowerCounter
  dsimp only
  split <;> exact ⟨rfl, rfl, rfl⟩

/-- Nor does a panel that completes. -/
theorem sameThreads_finishPanel (s : State) (p : Panel) : SameThreads s (finishPanel s p) := by
  have hdec (u : State) (i : Nat) : SameThreads u (if i = 0xFFFF then u else lowerCounter u i) := by
    split
    · exact .refl u
    · exact sameThreads_lowerCounter u i
  have h := (hdec s (dfld p.desc 74 2)).trans (hdec _ (dfld p.desc 76 2))
  unfold finishPanel
  dsimp only
  split <;> exact ⟨h.cur, h.moves, h.others⟩

/-- Nor does the task unit. -/
theorem sameThreads_settle (s : State) : SameThreads s (settle s) := by
  have honce (u : State) : SameThreads u (settleOnce u) := by
    unfold settleOnce
    split
    · exact ⟨rfl, rfl, rfl⟩
    · split
      · exact sameThreads_finishPanel u _
      · exact .refl u
  have hfuel (n : Nat) : ∀ u, SameThreads u (settleFuel n u) := by
    induction n with
    | zero => exact .refl
    | succ n ih => exact fun u => (honce u).trans (ih _)
  exact hfuel _ s

/-- Nor does a panel that is posted. -/
theorem sameThreads_postPanel (s : State) (tid : Nat) : SameThreads s (postPanel s tid) := by
  have hm {u : State} {f : Panel → Panel} : SameThreads s u → SameThreads s (modPanel u tid f) := fun h => ⟨h.cur, h.moves, h.others⟩
  have h1 {n : Nat} {f : Panel → Panel} : SameThreads s { modPanel s tid f with nextOrder := n } := ⟨rfl, rfl, rfl⟩
  unfold postPanel
  dsimp only
  split
  · exact h1
  · split
    · exact h1
    · split
      · exact (hm h1).trans (sameThreads_sendRecord _ _ _ _)
      · exact h1.trans (sameThreads_settle _)

/-! ### What drops chunks at most -/

/-- What has been put at a key of a list is found there, whatever key is deleted beside it. -/
theorem spGet_spDel_spPut {α : Type} (d : α) (l : List (Nat × α)) (k j : Nat) (v : α) (h : k ≠ j) :
    spGet d (spDel (spPut l k v) j) k = v := by
  induction l with
  | nil => grind [spGet, spDel, spPut]
  | cons e t ih =>
    obtain ⟨a, w⟩ := e
    grind [spGet, spDel, spPut, spGet_spPut]

/-- The same thread has the turn; its closed chunk, and what its open chunk keeps of weight slots, are as they were or gone. -/
structure DropsChunks (s t : State) : Prop where
  cur : t.cur = s.cur
  closed : t.t.closed = s.t.closed ∨ t.t.closed = none
  slots : t.t.chunk.slots = s.t.chunk.slots ∨ t.t.chunk.slots = []

namespace DropsChunks

theorem refl (s : State) : DropsChunks s s := ⟨rfl, .inl rfl, .inl rfl⟩

theorem trans {s t u : State} (h : DropsChunks s t) (k : DropsChunks t u) : DropsChunks s u := by
  refine ⟨k.cur.trans h.cur, ?_, ?_⟩
  · rcases k.closed with e | e
    · rw [e]; exact h.closed
    · exact .inr e
  · rcases k.slots with e | e
    · rw [e]; exact h.slots
    · exact .inr e

theorem foldl {α : Type} {f : State → α → State} (h : ∀ s x, DropsChunks s (f s x)) (l : List α) (s : State) :
    DropsChunks s (l.foldl f s) := by
  induction l generalizing s with
  | nil => exact .refl s
  | cons x l ih => exact (h s x).trans (ih _)

theorem of_same {s t : State} (h : SameThreads s t) : DropsChunks s t := ⟨h.cur, .inl (by rw [h.moves]), .inl (by rw [h.moves])⟩

/-- No closed chunk comes to be. -/
theorem closed_none {s t : State} (h : DropsChunks s t) (hs : s.t.closed = none) : t.t.closed = none := by
  rcases h.closed with e | e
  · rw [e, hs]
  · exact e

/-- Nor does the open chunk load a slot. -/
theorem slots_nil {s t : State} (h : DropsChunks s t) (hs : s.t.chunk.slots = []) : t.t.chunk.slots = [] := by
  rcases h.slots with e | e
  · rw [e, hs]
  · exact e

end DropsChunks

/-- So it is, and the other threads' records are as they were. -/
structure DropsAlone (s t : State) : Prop extends DropsChunks s t where
  others : t.threads = s.threads

namespace DropsAlone

theorem refl (s : State) : DropsAlone s s := ⟨.refl s, rfl⟩

theorem trans {s t u : State} (h : DropsAlone s t) (k : DropsAlone t u) : DropsAlone s u :=
  ⟨h.toDropsChunks.trans k.toDropsChunks, k.others.trans h.others⟩

theorem foldl {α : Type} {f : State → α → State} (h : ∀ s x, DropsAlone s (f s x)) (l : List α) (s : State) :
    DropsAlone s (l.foldl f s) := by
  induction l generalizing s with
  | nil => exact .refl s
  | cons x l ih => exact (h s x).trans (ih _)

theorem of_same {s t : State} (h : SameThreads s t) : DropsAlone s t := ⟨.of_same h, h.others⟩

/-- A change of the thread that keeps its chunks. -/
theorem of_modT (s : State) (f : Thread → Thread) (hc : (f s.t).closed = s.t.closed) (hk : (f s.t).chunk = s.t.chunk) :
    DropsAlone s (modT s f) :=
  ⟨⟨rfl, .inl hc, .inl (congrArg Chunk.slots hk)⟩, rfl⟩

/-- What is acted as a thread drops no chunk of the thread that has the turn but its own. -/
theorem dropsChunks_onThread {f : State → State} (h : ∀ u, DropsAlone u (f u)) (s : State) (tid : Nat) :
    DropsChunks s (onThread s tid f) := by
  by_cases hc : tid = s.cur
  · subst hc
    have hf := h s
    rw [onThread_self, switchTo, if_pos hf.cur.symm]
    exact hf.toDropsChunks
  · have hf := h (switchTo s tid)
    have hcur : (f (switchTo s tid)).cur = tid := hf.cur.trans (switchTo_cur s tid)
    have hth : (switchTo s tid).threads = spDel (spPut s.threads s.cur s.t) tid := by
      unfold switchTo
      rw [if_neg hc]
      split <;> rfl
    have hne : s.cur ≠ tid := fun e => hc e.symm
    have ht : (onThread s tid f).t = s.t := by
      rw [onThread, switchTo_t, threadAt, if_neg (by rw [hcur]; exact hne), hf.others, hth]
      exact spGet_spDel_spPut _ _ _ _ _ hne
    exact ⟨switchTo_cur _ _, .inl (by rw [ht]), .inl (by rw [ht])⟩

end DropsAlone

/-! ### A broadcast -/

/-- A trace record reaches no thread. -/
theorem sameThreads_traceAt (lvl : Level) (s : State) (ty : Nat) (b : Bool) (pc : Nat) (x y : Word) :
    SameThreads s (traceAt lvl s ty b pc x y) := by
  unfold traceAt
  split
  · exact .refl s
  · split
    · exact .refl s
    · exact ⟨rfl, rfl, rfl⟩

/-- A count in CHKSTAT drops nothing. -/
theorem dropsAlone_bumpStat (s : State) (i n : Nat) : DropsAlone s (bumpStat s i n) := .of_modT s _ rfl rfl

/-- Nor does the escalation that follows a squash. -/
theorem dropsAlone_escalate (s : State) (foot : List Nat) : DropsAlone s (escalate s foot) := by
  unfold escalate
  dsimp only
  split
  · exact .of_modT s _ rfl rfl
  · split
    · exact .of_modT s _ rfl rfl
    · exact .refl s

/-- Nor does EFF where it is halved. -/
theorem dropsAlone_halve (s : State) (p : Prop) [Decidable p] : DropsAlone s (if p then modT s halveEff else s) := by
  split
  · exact .of_modT s _ rfl rfl
  · exact .refl s

/-- A squash drops the open chunk, and the closed one where it reaches it. -/
theorem dropsAlone_squash (s : State) (older wrong : Bool) : DropsAlone s (squash s older wrong) := by
  unfold squash
  extract_lets t ct old first n oldest bad c1 c2 sls mended c c3 out s1 s2 s3 note s4
  have h2 : DropsAlone s s2 := by
    refine ⟨⟨rfl, ?_, .inr rfl⟩, rfl⟩
    cases older
    · exact .inl rfl
    · exact .inr rfl
  have h3 : DropsAlone s s3 := h2.trans ((dropsAlone_bumpStat s2 1 n).trans (dropsAlone_bumpStat _ 2 _))
  have hnote (u : State) (c : Chunk) : DropsAlone u (note u c) := .of_same (sameThreads_traceAt _ u _ _ _ _ _)
  have h4 : DropsAlone s s4 := by
    by_cases hn : n = 2
    · simp only [s4, if_pos hn]
      exact h3.trans ((hnote s3 first).trans (hnote _ t.chunk))
    · simp only [s4, if_neg hn]
      exact h3.trans (hnote s3 first)
  clear_value s4
  split
  · exact h4.trans (dropsAlone_escalate s4 _)
  · exact h4

/-- A squash of a pass chunk drops no chunk of the thread's own. -/
theorem dropsAlone_squashPass (s : State) (wrong : Bool) : DropsAlone s (squashPass s wrong) := by
  unfold squashPass
  split
  · exact .refl s
  · extract_lets foot bad s1 s1' n s2
    have h1 : DropsAlone s s1' := ⟨⟨rfl, .inl rfl, .inl rfl⟩, rfl⟩
    have h2 : DropsAlone s s2 := h1.trans (dropsAlone_halve s1' _)
    clear_value s2
    exact h2.trans (((dropsAlone_bumpStat s2 1 1).trans (dropsAlone_bumpStat _ 2 _)).trans (.of_same (sameThreads_traceAt _ _ _ _ _ _ _)))

/-- Nor does one of an engine's chunk. -/
theorem dropsAlone_squashEngine (s : State) (k : Nat) (wrong : Bool) : DropsAlone s (squashEngine s k wrong) := by
  unfold squashEngine
  extract_lets f
  have h (v : State) : DropsAlone v (bumpStat (bumpStat v 1 1) 2 (b2n wrong)) :=
    (dropsAlone_bumpStat v 1 1).trans (dropsAlone_bumpStat _ 2 _)
  refine .trans ?_ (h _)
  exact ⟨⟨rfl, .inl rfl, .inl rfl⟩, rfl⟩

/-- Nor do slots that count as stalled. -/
theorem dropsAlone_stallSlots (s : State) (v : Vector (Nat × Nat) 4) : DropsAlone s (stallSlots s v) := by
  have hadd (u : State) (c k : Nat) (n : Word) : DropsAlone u (addLane u c k n) := .of_modT u _ rfl rfl
  exact .foldl (fun u c => (hadd u c 0 _).trans ((hadd _ c 1 _).trans (hadd _ c 4 _))) _ s

/-- Nor does a squash of the last chunk of a completed pass. -/
theorem dropsAlone_dropSealed (s : State) (wrong : Bool) : DropsAlone s (dropSealed s wrong) := by
  unfold dropSealed
  split
  · exact .refl s
  · split
    · exact .refl s
    · extract_lets e s1 s2 s3
      have h2 : DropsAlone s s2 := ⟨⟨rfl, .inl rfl, .inl rfl⟩, rfl⟩
      have h3 : DropsAlone s s3 := h2.trans (dropsAlone_halve s2 _)
      clear_value s3
      exact h3.trans ((dropsAlone_stallSlots s3 _).trans (((dropsAlone_bumpStat _ 1 1).trans (dropsAlone_bumpStat _ 2 _)).trans
        (.of_same (sameThreads_traceAt _ _ _ _ _ _ _))))

/-- What a broadcast squashes of one thread. -/
theorem dropsChunks_broadcastTo (agent : Nat) (long : Bool) (wl wg : List Nat) (s : State) (tid : Nat) :
    DropsChunks s (broadcastTo agent long wl wg s tid) := by
  unfold broadcastTo
  extract_lets l g seen wrong
  refine DropsAlone.dropsChunks_onThread (fun u => ?_) s tid
  extract_lets s1 s2 s3
  have h1 : DropsAlone u s1 := by
    simp only [s1]
    split
    · exact .refl u
    · split
      · split
        · exact dropsAlone_squash u _ _
        · split
          · exact dropsAlone_squash u _ _
          · exact .refl u
      · split
        · exact dropsAlone_squash u _ _
        · exact .refl u
  clear_value s1
  have h2 : DropsAlone u s2 := by
    simp only [s2]
    split
    · exact h1
    · split
      · exact h1.trans (dropsAlone_squashPass s1 _)
      · exact h1
  clear_value s2
  have h3 : DropsAlone u s3 := by
    simp only [s3]
    split
    · exact h2
    · split
      · exact h2.trans (dropsAlone_dropSealed s2 _)
      · exact h2
  clear_value s3
  refine h3.trans (.foldl (fun v e => ?_) _ s3)
  split
  · exact .refl v
  · split
    · exact dropsAlone_squashEngine v _ _
    · exact .refl v

/-- What a broadcast squashes. -/
theorem dropsChunks_broadcast (s : State) (agent : Nat) (wl wg : List Nat) : DropsChunks s (broadcast s agent wl wg) := by
  unfold broadcast
  split
  · exact .refl s
  · extract_lets long
    refine .foldl (fun v tid => ?_) _ s
    extract_lets c
    split
    · unfold putCore
      split <;> exact .of_same ⟨rfl, rfl, rfl⟩
    · exact dropsChunks_broadcastTo agent long wl wg v tid

/-! ### A commit -/

/-- A commit that a WAITV watches keeps the chunks. -/
theorem dropsChunks_wakeWaiters (s : State) (lines : List Nat) : DropsChunks s (wakeWaiters s lines) := by
  unfold wakeWaiters
  split
  · exact .refl s
  · extract_lets f
    have hf : (f s.t).closed = s.t.closed ∧ (f s.t).chunk = s.t.chunk := by
      simp only [f]
      split
      · split <;> exact ⟨rfl, rfl⟩
      · exact ⟨rfl, rfl⟩
    exact ⟨rfl, .inl hf.1, .inl (congrArg Chunk.slots hf.2)⟩

/-- So does a packet that leaves. -/
theorem sameThreads_sendPacket (s : State) (m : Msg) (da : Word) (i : Instr) : SameThreads s (sendPacket s m da i) := by
  unfold sendPacket
  split
  · exact ⟨rfl, rfl, rfl⟩
  · split
    · exact .refl s
    · exact ⟨rfl, rfl, rfl⟩

/-- So does any message. -/
theorem dropsChunks_sendMsg (s : State) (m : Msg) : DropsChunks s (sendMsg s m) := by
  have hwrite (m : Msg) (da : Word) (i : Instr) : DropsChunks s (sendWrite s m da i) :=
    (DropsChunks.of_same (sameThreads_sendPacket s m da i)).trans (DropsAlone.of_modT _ _ rfl rfl).toDropsChunks
  cases m with
  | post p => exact .of_same (sameThreads_postPanel s p)
  | depset i v =>
    have hput (c : Counter) : SameThreads s (putCounter s i c) := ⟨rfl, rfl, rfl⟩
    exact .of_same ((hput _).trans (sameThreads_settle _))
  | depdec i => exact .of_same ((sameThreads_lowerCounter s i).trans (sameThreads_settle _))
  | rst tid da n v => exact hwrite _ _ _
  | rred tid da ty sc mask data => exact hwrite _ _ _
  | request tid da kind n x e => exact .of_same (sameThreads_sendPacket s _ _ _)
  | _ => exact .of_same ⟨rfl, rfl, rfl⟩

/-- A commit drops chunks of its thread at most, by its broadcast. -/
theorem dropsChunks_commitItems (s : State) (agent : Nat) (c : Chunk) (ext : List Word) :
    DropsChunks s (commitItems s agent c ext) := by
  unfold commitItems
  extract_lets own spare foot s0 s1 s2 s3 lines s4 s5
  have h0 : SameThreads s s0 := by
    simp only [s0]
    split
    · exact ⟨rfl, rfl, rfl⟩
    · exact .refl s
  have h1 : SameThreads s s1 := h0.trans ((sameThreads_settleRecs s0 agent c).trans (sameThreads_takeGrants _ agent c.num _ _ ext))
  have h2 : SameThreads s s2 := by
    simp only [s2]
    split
    · exact h1
    · exact ⟨h1.cur, h1.moves, h1.others⟩
  have h3 : DropsChunks s s3 := (DropsChunks.of_same h2).trans (dropsChunks_broadcast s2 agent c.writeL c.writeG)
  have h4 : DropsChunks s s4 :=
    h3.trans ((DropsChunks.of_same (sameThreads_pokeAll c.writes.reverse s3)).trans (dropsChunks_wakeWaiters _ _))
  have h5 : DropsChunks s s5 := by
    refine .trans ?_ (.foldl dropsChunks_sendMsg c.out _)
    exact ⟨h4.cur, h4.closed, h4.slots⟩
  exact ⟨h5.cur, h5.closed, h5.slots⟩

/-- A commit with its trace records. -/
theorem dropsChunks_traceCommit (lvl : Level) (s : State) (pass : Bool) (pc : Nat) (c : Chunk) (x y : Word) :
    DropsChunks s (traceCommit lvl s pass pc c x y) :=
  .of_same ((sameThreads_traceAt _ s _ _ _ _ _).trans (sameThreads_traceAt _ _ _ _ _ _ _))

/-- So does the commit of a completed pass. -/
theorem dropsChunks_commitSealed (s : State) : DropsChunks s (commitSealed s) := by
  unfold commitSealed
  split
  · exact .refl s
  · split
    · exact .refl s
    · extract_lets n s1 w
      have h1 : DropsChunks s s1 := by
        refine (DropsAlone.of_modT s _ ?_ ?_).toDropsChunks
        all_goals dsimp only; split <;> rfl
      exact h1.trans ((dropsAlone_bumpStat s1 0 1).toDropsChunks.trans
        ((dropsChunks_traceCommit _ _ _ _ _ _ _).trans (dropsChunks_commitItems _ _ _ _)))

/-- The closed chunk commits: none is closed then. -/
theorem commitClosed_closed (s : State) : DropsChunks s (commitClosed s) ∧ (commitClosed s).t.closed = none := by
  unfold commitClosed
  split
  · next h => exact ⟨.refl s, h⟩
  · next c _ =>
    extract_lets s0 s1
    have h0 : DropsChunks s s0 := by
      simp only [s0]
      split
      · exact dropsChunks_commitSealed s
      · exact .refl s
    have h1 : s1.cur = s0.cur ∧ s1.t.closed = none ∧ s1.t.chunk = s0.t.chunk := by
      refine ⟨rfl, ?_⟩
      simp only [s1, modT]
      split <;> exact ⟨rfl, rfl⟩
    clear_value s1
    obtain ⟨hcur, hclosed, hchunk⟩ := h1
    have h : DropsChunks s1 _ := (dropsAlone_bumpStat s1 0 1).toDropsChunks.trans
      ((dropsChunks_traceCommit s1.t.lvl _ false c.pc c (wd c.num) (wd c.count)).trans (dropsChunks_commitItems _ s1.cur c [wd c.count]))
    refine ⟨h0.trans (.trans ⟨hcur, .inr hclosed, ?_⟩ h), h.closed_none hclosed⟩
    exact .inl (by rw [hchunk])

/-- A commit of the open chunk leaves the thread its turn and no closed chunk; it leaves an open chunk in which nothing has begun, and one
that has committed is followed by one that holds nothing. -/
theorem commitOpen_closed (s : State) : (commitOpen s).cur = s.cur ∧ (commitOpen s).t.closed = none ∧
    ((commitOpen s).t.chunk.idle = true ∨ (commitOpen s).t.chunk.slots = []) := by
  obtain ⟨hfirst, hnone⟩ := commitClosed_closed s
  unfold commitOpen closeOpen
  extract_lets u a
  split
  · next hidle =>
    have hu : commitClosed u = u := by
      unfold commitClosed
      simp only [u, hnone]
    rw [hu]
    exact ⟨hfirst.cur, hnone, .inl hidle⟩
  · next a _ =>
    obtain ⟨h, hclosed⟩ := commitClosed_closed (modT u fun t => { t with
      a := a, ckptOpen := a, closed := some t.chunk, chunk := Chunk.empty a.pc (t.chunk.num + 1), draw := none, drawOld := t.draw })
    exact ⟨h.cur.trans hfirst.cur, hclosed, .inr (h.slots_nil rfl)⟩

/-- With no closed chunk, and nothing begun in the open one, there is nothing to commit. -/
theorem commitOpen_idle (s : State) (hc : s.t.closed = none) (hi : s.t.chunk.idle = true) : commitOpen s = s := by
  have hs : commitClosed s = s := by
    unfold commitClosed
    simp only [hc]
  simp only [commitOpen, closeOpen, hs, hi, if_true]

/-! ### The wait for the slot (R226) -/

/-- The state in which the thread's own MLDWs into a slot have committed. -/
def ownCommitted (s : State) (i : Nat) : State :=
  if s.t.chunk.slots.any fun p => p.1 == i then commitOpen s else if loadsSlot s.t i then commitClosed s else s

/-- What happens then: the sibling's are waited for. -/
def unlessSibling (s : State) (i : Nat) (f : State → State) : State :=
  if loadsSlot (threadAt s (siblingOf s.cur)) i then modT s fun t => { t with stall := .slot i } else f s

theorem withSlot_eq (s : State) (i : Nat) (f : State → State) : withSlot s i f = unlessSibling (ownCommitted s i) i f := rfl

/-- A slot that no chunk of the thread has loaded needs no commit. -/
theorem ownCommitted_free (s : State) (i : Nat) (h : loadsSlot s.t i = false) : ownCommitted s i = s := by
  have ho : (s.t.chunk.slots.any fun p => p.1 == i) = false := (Bool.or_eq_false_iff.mp h).1
  rw [ownCommitted, if_neg (by rw [ho]; decide), if_neg (by rw [h]; decide)]

/-- One that the open chunk has loaded needs its commit, -/
theorem ownCommitted_open (s : State) (i : Nat) (h : (s.t.chunk.slots.any fun p => p.1 == i) = true) :
    ownCommitted s i = commitOpen s := if_pos h

/-- and after that no other. -/
theorem ownCommitted_commitOpen (s : State) (i : Nat) : ownCommitted (commitOpen s) i = commitOpen s := by
  obtain ⟨-, hclosed, hidle | hslots⟩ := commitOpen_closed s
  · unfold ownCommitted
    split
    · exact commitOpen_idle _ hclosed hidle
    · split
      · unfold commitClosed
        simp only [hclosed]
      · rfl
  · exact ownCommitted_free _ i (by simp [loadsSlot, hslots, hclosed])

/-! ### The tile that enters the slot (R231) -/

/-- MLDW in a state in which its slot is its own to take. -/
def loadTile (i : BitVec 1) (a : Reg) (ty : BitVec 4) (s : State) : State :=
  match imageHead (settleSealed s) (rd s a) with
  | (s1, .error f) => fltTrap s1 f
  | (s1, .ok (k, h)) =>
    if !formOk (h / 2 ^ 32 % 256) ty.toNat then illegal s1 (encode (.mldw i a ty)) else
      match imagePlaces s1 (rd s a + 64) (bodySize (h / 2 ^ 32 % 256) ty.toNat / 64) with
      | (s2, .error f) => fltTrap s2 f
      | (s2, .ok l) =>
        if checkFailed s2 (drainCore s2) then complete (drainCore s2) else
        complete { fillSlot (drainCore s2) i.toNat ty.toNat (h / 2 ^ 32 % 256) (BitVec.ofNat 32 h) k (rd s a + 64) l with
          agenda := (drainCore s2).agenda ++ [.event (.tileLoadCompletion (coreOf (drainCore s2).cur) i.toNat)] }

/-- MLDW on a compute core, its address aligned. -/
theorem exec_mldw (s : State) (i : BitVec 1) (a : Reg) (ty : BitVec 4) (hc : onComputeCore s) (ha : (rd s a).toNat % 64 = 0) :
    exec (.mldw i a ty) s = .next (unlessSibling (ownCommitted s i.toNat) i.toNat (loadTile i a ty)) := by
  rw [← withSlot_eq]
  refine congrArg Host.Outcome.next ((onCompute_core s _ _ hc).trans ((aligned_holds s _ 64 _ ha).trans ?_))
  rfl

/-- What slot i holds of a tile that enters it: the body is streaming in. -/
def enteringTile (w : State) (i ty form : Nat) (scale : BitVec 32) (va : Word) (l : List Nat) : Slot :=
  { slotOf w.c i with
    owner := some w.cur, ty := ty, scale := scale, poison := none,
    loading := some (bodyTile form ty (fun o => fencedByte w (l.getD (o / 64 - 1) 0 + o % 64)), poisonedLine w va l) }

/-- The state in which a tile has entered slot i. -/
def tileEntered (w : State) (i ty form : Nat) (scale : BitVec 32) (k : Nat) (va : Word) (l : List Nat) : State :=
  complete { fillSlot w i ty form scale k va l with
    agenda := w.agenda ++ [.event (.tileLoadCompletion (coreOf w.cur) i)] }

/-- Its header and its body reached, its form allowed, and the steps in the array over, the tile enters. -/
theorem loadTile_enters {i : BitVec 1} {a : Reg} {ty : BitVec 4} {s u1 u2 : State} {k h : Nat} {l : List Nat}
    (hh : imageHead (settleSealed s) (rd s a) = (u1, .ok (k, h))) (hf : formOk (h / 2 ^ 32 % 256) ty.toNat = true)
    (hp : imagePlaces u1 (rd s a + 64) (bodySize (h / 2 ^ 32 % 256) ty.toNat / 64) = (u2, .ok l))
    (hc : checkFailed u2 (drainCore u2) = false) :
    loadTile i a ty s =
      tileEntered (drainCore u2) i.toNat ty.toNat (h / 2 ^ 32 % 256) (BitVec.ofNat 32 h) k (rd s a + 64) l := by
  simp only [loadTile, hh, hf, hp, hc, Bool.not_true, Bool.false_eq_true, if_false]
  rfl

/-- A slot reads what has been put there, and the other slot is as it was. -/
theorem slotOf_putSlot (c : Core) (i : BitVec 1) (sl : Slot) :
    slotOf (putSlot c i.toNat sl) i.toNat = sl ∧ slotOf (putSlot c i.toNat sl) (1 - i.toNat) = slotOf c (1 - i.toNat) := by
  obtain h | h : i.toNat = 0 ∨ i.toNat = 1 := by omega
  all_goals rw [h]; exact ⟨rfl, rfl⟩

/-- A tile that enters changes the core's slots, their history in the chunk, and what is due. -/
theorem keeps_tileEntered (w : State) (i ty form : Nat) (scale : BitVec 32) (k : Nat) (va : Word) (l : List Nat) :
    Keeps [.weights, .pc, .count] w (tileEntered w i ty form scale k va l) := by
  refine keeps_of _ _ _ (by decide) ?_
  unfold tileEntered fillSlot putSlot
  dsimp only
  split
  all_goals simp only [erased, List.foldl, Part.erase, modA, modT, blankCore, complete, goTo, countOne, setPc]

/-- Settles O24: the thread's own chunk commits first, the sibling's is waited for, and then the tile enters. -/
theorem tileLoads : Obligations.TileLoads := by
  unfold Obligations.TileLoads
  intro s i a ty va mine theirs hcore hva
  have hexec := exec_mldw s i a ty hcore hva
  refine ⟨fun hmine hrd => ?_, fun hown htheirs => ?_, ?_⟩
  · have hcur : onComputeCore (commitOpen s) := by
      rw [onComputeCore, (commitOpen_closed s).1]
      exact hcore
    rw [hexec, exec_mldw (commitOpen s) i a ty hcur (by rw [hrd]; exact hva), ownCommitted_open s _ hmine, ownCommitted_commitOpen]
  · rw [ownCommitted_free s _ hown, unlessSibling, if_pos htheirs] at hexec
    exact ⟨_, hexec, rfl, keeps_of _ _ _ (by decide) rfl⟩
  · intro u1 u2 k h l form w hown htheirs hhead hform hplaces hcheck
    rw [ownCommitted_free s _ hown, unlessSibling, if_neg (by simp only [theirs] at htheirs; rw [htheirs]; decide),
      loadTile_enters hhead hform hplaces hcheck] at hexec
    obtain ⟨hslot, hother⟩ := slotOf_putSlot w.c i (enteringTile w i.toNat ty.toNat form (BitVec.ofNat 32 h) (va + 64) l)
    exact ⟨_, hexec, congrArg Slot.owner hslot, congrArg Slot.ty hslot, congrArg Slot.scale hslot, congrArg Slot.poison hslot,
      congrArg (fun sl => sl.loading.isSome) hslot, hother, rfl, rfl, fun _ => rfl, rfl, keeps_tileEntered w _ _ _ _ _ _ _⟩

end Sys2Proof.Proofs
end

section
/-! The instructions on tile rows (O25): the errors that a write ends, the steps that enter the array, the rows that are zeroed, and the row
that is read. -/

set_option Elab.async false

namespace Sys2Proof.Proofs

open Sys2Proof Sys2Proof.Machine Sys2Proof.Laws

/-! ### Errors that a write ends (R243) -/

/-- What ends errors changes the list of them and the chunk's record of that, and nothing else. -/
theorem clearBad_eq (s : State) (keys : List Nat) : ∃ bad mended, clearBad s keys =
    { s with c := { s.c with bad := bad }, t := { s.t with chunk := { s.t.chunk with mended := mended } } } := by
  unfold clearBad
  split
  · exact ⟨s.c.bad, s.t.chunk.mended, rfl⟩
  · exact ⟨_, _, rfl⟩

/-- The architected state is as it was. -/
theorem clearBad_a (s : State) (keys : List Nat) : (clearBad s keys).t.a = s.t.a := by
  obtain ⟨bad, mended, h⟩ := clearBad_eq s keys
  rw [h]

/-- So are the tile rows. -/
theorem clearBad_tiles (s : State) (keys : List Nat) : (clearBad s keys).c.tiles = s.c.tiles := by
  obtain ⟨bad, mended, h⟩ := clearBad_eq s keys
  rw [h]

/-- An instruction that changes none of the registers and completes. -/
theorem completes_sameA {u v : State} (h : v.t.a = u.t.a) : sameRegs u (complete v) ∧ follows u (complete v) := by
  refine ⟨fun r => ?_, ?_⟩
  · rw [rd_complete, rd, rd, h]
  · exact congrArg (fun a => (a.pc + 4) % 2 ^ 64) h

/-! ### MROW and MSLIDE (R233, R236) -/

/-- A vector register by its number. -/
theorem regVal_vreg (a : Arch) (v : Reg) : regVal a v.toNat = vreg a v := by
  have hv := v.isLt
  simp [regVal, vreg, hv]

/-- An instruction whose register is RESIDENT and not too long acts. -/
theorem needResident_resident {s : State} {v : Reg} (f : State → State) (hr : (vreg s.t.a v).resident = true)
    (hl : (vreg s.t.a v).len ≤ residentLimit (vreg s.t.a v).ty) : needResident s v.toNat f = f s := by
  simp only [needResident, regVal_vreg, Nat.not_lt.mpr hl, hr, if_true, if_false]

/-- The step of row t of an instruction at r (R233, R236). -/
def stepOf (r : State) (g : Nat) (l : List Lane) (ty i depth : Nat) (q : BitVec 3) (acc : Bool) (t : Nat) : MatStep :=
  { tid := r.cur, pc := r.t.a.pc, row := g + t, act := (l.drop t).take depth, ty := ty, slot := i,
    scale := r.t.a.q[q.toNat]'(q.isLt), acc := acc, num := r.t.chunk.num }

/-- The state in which the steps have entered the array. -/
def stepsEntered (r : State) (g count : Nat) (l : List Lane) (ty i depth : Nat) (q : BitVec 3) (acc : Bool) : State :=
  complete (issueSteps (clearBad r ((List.range count).map (g + ·))) g count l ty i depth (r.t.a.q[q.toNat]'(q.isLt)) acc)

/-- What O25 says of a state in which they have: the steps stand behind those that were in the array, and the instruction has completed. -/
def HasEntered (r t : State) (g count : Nat) (l : List Lane) (ty i depth : Nat) (q : BitVec 3) (acc : Bool) : Prop :=
  t.c.mat = r.c.mat ++ (List.range count).map (stepOf r g l ty i depth q acc) ∧ sameRegs r t ∧ follows r t ∧
    Keeps [.array, .bad, .pc, .count] r t

theorem hasEntered_stepsEntered (r : State) (g count : Nat) (l : List Lane) (ty i depth : Nat) (q : BitVec 3) (acc : Bool) :
    HasEntered r (stepsEntered r g count l ty i depth q acc) g count l ty i depth q acc := by
  obtain ⟨bad, mended, h⟩ := clearBad_eq r ((List.range count).map (g + ·))
  simp only [stepsEntered, h]
  refine ⟨rfl, fun _ => rfl, rfl, keeps_of _ _ _ (by decide) ?_⟩
  simp only [erased, List.foldl, Part.erase, modA, modT, blankCore, complete, goTo, countOne, setPc, issueSteps]

section

variable {s : State} {v a : Reg} {n u : BitVec 2} {i : BitVec 1} {q : BitVec 3} {ty : BitVec 4} {w g count : Nat} {slide acc : Bool}

/-- A row instruction all of whose checks pass. -/
theorem rowOp_enters (hc : onComputeCore s) (hr : (vreg s.t.a v).resident = true)
    (hl : (vreg s.t.a v).len ≤ residentLimit (vreg s.t.a v).ty) (ht : (vreg s.t.a v).ty = ty.toNat) (ha : (rd s a).toNat < 128)
    (ho : (finishLoad (slotOf s.c i.toNat)).owner = some s.cur)
    (h2 : (finishLoad (slotOf s.c i.toNat)).ty = secondType ty.toNat u) (hp : (finishLoad (slotOf s.c i.toNat)).poison = none)
    (hg : g = 128 * n.toNat + (rd s a).toNat)
    (hn : count = if slide then max 1 ((vreg s.t.a v).len + 1 - tileDepth ty.toNat) else 1) (hh : holdsRows s g count = true)
    (he : matrixError s (if acc then (List.range count).map (g + ·) else []) (if ty.toNat < 8 then none else some q.toNat) = none) :
    rowOp w slide acc v a n i u q ty s = .next (ownChunk (32 < count) s fun r =>
      stepsEntered r g count (vreg s.t.a v).lanes ty.toNat i.toNat (tileDepth ty.toNat) q acc) := by
  have hchecks : ¬ (128 ≤ (rd s a).toNat ∨ holdsRows s g count = false ∨ (finishLoad (slotOf s.c i.toNat)).owner ≠ some s.cur ∨
      (finishLoad (slotOf s.c i.toNat)).ty ≠ secondType ty.toNat u ∨ (vreg s.t.a v).ty ≠ ty.toNat) := by
    simp only [not_or, Decidable.not_not, Bool.not_eq_false]
    exact ⟨Nat.not_le.mpr ha, hh, ho, h2, ht⟩
  have hcount : count = if slide then Nat.max 1 ((vreg s.t.a v).len + 1 - tileDepth ty.toNat) else 1 := hn
  unfold rowOp
  rw [onCompute_core s _ _ hc, needResident_resident _ hr hl]
  dsimp only
  rw [← hg, ← hcount, if_neg hchecks, hp]
  dsimp only
  rw [he]
  rfl

/-- So the steps enter, in a chunk of their own where they are more than 32 (R276). -/
theorem answers_of_stepsEntered {j : Instr} {l : List Lane} {t k depth : Nat}
    (hx : exec j s = .next (ownChunk (32 < count) s fun r => stepsEntered r g count l t k depth q acc)) :
    (count ≤ 32 → Answers j s fun x => HasEntered s x g count l t k depth q acc) ∧
      (32 < count → Answers j s fun x => ∃ y, x = commitOpen y ∧ HasEntered (commitOpen s) y g count l t k depth q acc) := by
  refine ⟨fun hle => ⟨_, hx, ?_⟩, fun hlt => ⟨_, hx, ?_⟩⟩
  · rw [ownChunk, if_neg (by simpa using hle)]
    exact hasEntered_stepsEntered s _ _ _ _ _ _ _ _
  · rw [ownChunk, if_pos (by simpa using hlt)]
    exact ⟨_, rfl, hasEntered_stepsEntered (commitOpen s) _ _ _ _ _ _ _ _⟩

end

/-! ### Rows that are zeroed (R238) -/

/-- A key that no entry has reads the default. -/
theorem spGet_absent {α : Type} (d : α) (l : List (Nat × α)) (k : Nat) (h : ∀ e ∈ l, e.1 ≠ k) : spGet d l k = d := by
  induction l with
  | nil => rfl
  | cons e l ih =>
    have hk : e.1 ≠ k := h e (List.mem_cons_self ..)
    have hl := ih fun x hx => h x (List.mem_cons_of_mem _ hx)
    rw [spGet, if_neg hk, hl, ite_self]

/-- A filter on keys that a key passes leaves what is read there. -/
theorem spGet_filter {α : Type} (d : α) (p : Nat → Bool) (l : List (Nat × α)) (k : Nat) (hk : p k = true) (h : Rising l) :
    spGet d (l.filter fun e => p e.1) k = spGet d l k := by
  induction l with
  | nil => rfl
  | cons e l ih =>
    obtain ⟨x, w⟩ := e
    obtain ⟨hx, hl⟩ := h
    by_cases hp : p x = true
    · rw [List.filter_cons_of_pos (by simpa using hp)]
      simp only [spGet, ih hl]
    · have hne : x ≠ k := fun e => hp (e ▸ hk)
      rw [List.filter_cons_of_neg (by simpa using hp), ih hl, spGet, if_neg hne]
      split
      · next hlt => exact spGet_below d l k fun e he => Nat.lt_trans hlt (hx e he)
      · rfl

/-- Rows of a range that becomes zero read zero. -/
theorem tileRow_zeroRows_inside (c : Core) (lo hi r : Nat) (h : lo ≤ r ∧ r < hi) :
    tileRow (zeroRows c lo hi) r = List.replicate 128 0 := by
  refine spGet_absent _ _ _ fun e he hr => ?_
  have hp := (List.mem_filter.mp he).2
  simp [hr, h] at hp

/-- The others read as they did. -/
theorem tileRow_zeroRows_outside (c : Core) (lo hi r : Nat) (hs : Rising c.tiles) (h : r < lo ∨ hi ≤ r) :
    tileRow (zeroRows c lo hi) r = tileRow c r := by
  refine spGet_filter _ (fun k => !(decide (lo ≤ k) && decide (k < hi))) _ _ ?_ hs
  simp only [Bool.not_eq_true', Bool.and_eq_false_iff, decide_eq_false_iff_not]
  omega

/-- A row that is zeroed is no longer listed. -/
theorem zeroRow_tiles (s : State) (g : Nat) : (zeroRow s g).c.tiles = spDel s.c.tiles g := by
  have h : (zeroRow s g).c.tiles = spSet (List.replicate 128 0) s.c.tiles g (List.replicate 128 0) := rfl
  rw [h, spSet, if_pos rfl]

/-- Its prior contents go to the open chunk (R226): the rows and their history are all that changes. -/
theorem erased_zeroRow (s : State) (g : Nat) : erased [.tiles] (zeroRow s g) = erased [.tiles] s := by
  have hlog : ∃ undo given, logRow s.t s.t.chunk.num g (tileRow s.c g) =
      { s.t with chunk := { s.t.chunk with undo := undo, given := given } } := by
    unfold logRow
    dsimp only
    rw [if_pos rfl]
    split
    · exact ⟨s.t.chunk.undo, _, rfl⟩
    · exact ⟨_, s.t.chunk.given, rfl⟩
  obtain ⟨undo, given, h⟩ := hlog
  simp only [zeroRow, modT, h]
  rfl

/-- Several rows, one after another: they read zero, the others as they did, and no more changes. -/
theorem foldl_zeroRow (l : List Nat) (s : State) (hs : Rising s.c.tiles) :
    (∀ r, tileRow (l.foldl zeroRow s).c r = if r ∈ l then List.replicate 128 0 else tileRow s.c r) ∧
      (l.foldl zeroRow s).t.a = s.t.a ∧ erased [.tiles] (l.foldl zeroRow s) = erased [.tiles] s := by
  induction l generalizing s with
  | nil => exact ⟨fun _ => rfl, rfl, rfl⟩
  | cons g l ih =>
    have hz : Rising (zeroRow s g).c.tiles := by
      rw [zeroRow_tiles]
      exact rising_spDel _ g hs
    obtain ⟨hrows, ha, hrest⟩ := ih (zeroRow s g) hz
    refine ⟨fun r => ?_, ha.trans (logRow_a _ _ _ _), hrest.trans (erased_zeroRow s g)⟩
    have hone : tileRow (zeroRow s g).c r = if r = g then List.replicate 128 0 else tileRow s.c r := by
      rw [tileRow, zeroRow_tiles]
      exact spGet_spDel _ _ g r hs
    rw [List.foldl_cons, hrows, hone]
    by_cases hr : r = g <;> simp [hr]

/-- Of rows and errors alone a change is one of those parts, also where the instruction completes. -/
theorem keeps_complete_tiles {u v : State} (h : erased [.tiles, .bad] v = erased [.tiles, .bad] u) :
    Keeps [.tiles, .bad, .pc, .count] u (complete v) := by
  refine keeps_of _ _ _ (by decide) ?_
  have hc : erased [.tiles, .bad, .pc, .count] (complete v) = erased [.tiles, .bad, .pc, .count] v := by
    simp only [erased, List.foldl, Part.erase, modA, modT, blankCore, complete, goTo, countOne, setPc]
  rw [hc]
  exact congrArg (erased [.pc, .count]) h

/-- Errors that end are the errors' part. -/
theorem erased_clearBad (u : State) (keys : List Nat) : erased [.tiles, .bad] (clearBad u keys) = erased [.tiles, .bad] u := by
  obtain ⟨bad, mended, h⟩ := clearBad_eq u keys
  rw [h]
  rfl

/-- The rows from g on, count of them. -/
theorem mem_rows (g count r : Nat) : r ∈ (List.range count).map (g + ·) ↔ g ≤ r ∧ r < g + count := by
  simp only [List.mem_map, List.mem_range]
  constructor
  · rintro ⟨j, hj, rfl⟩
    omega
  · intro h
    exact ⟨r - g, by omega, by omega⟩

/-- Up to 32 rows become zero, their prior contents logged. -/
def rowsZeroed (u : State) (g count : Nat) : State :=
  complete (((List.range count).map (g + ·)).foldl zeroRow (clearBad u ((List.range count).map (g + ·))))

/-- More than 32 become zero in a chunk of their own, which logs nothing (R276). -/
def rangeZeroed (u : State) (g count : Nat) : State :=
  complete { clearBad u ((List.range count).map (g + ·)) with
    c := zeroRows (clearBad u ((List.range count).map (g + ·))).c g (g + count) }

/-- They read zero, and no other row changes; the rows and their errors are all that does. -/
theorem rowsZeroed_leaves (u : State) (g count : Nat) (hs : Rising u.c.tiles) :
    let t := rowsZeroed u g count
    (∀ j < count, tileRow t.c (g + j) = List.replicate 128 0) ∧ (∀ r, (r < g ∨ g + count ≤ r) → tileRow t.c r = tileRow u.c r) ∧
      sameRegs u t ∧ follows u t ∧ Keeps [.tiles, .bad, .pc, .count] u t := by
  intro t
  have hb := clearBad_tiles u ((List.range count).map (g + ·))
  obtain ⟨hrows, ha, hrest⟩ :=
    foldl_zeroRow ((List.range count).map (g + ·)) (clearBad u ((List.range count).map (g + ·))) (by rw [hb]; exact hs)
  obtain ⟨hregs, hnext⟩ := completes_sameA (ha.trans (clearBad_a u _))
  refine ⟨fun j hj => ?_, fun r hr => ?_, hregs, hnext, keeps_complete_tiles ((congrArg (erased [.bad]) hrest).trans (erased_clearBad u _))⟩
  · exact (hrows (g + j)).trans (if_pos ((mem_rows g count _).mpr (by omega)))
  · refine (hrows r).trans ((if_neg fun hm => ?_).trans (by rw [tileRow, hb]; rfl))
    have := (mem_rows g count r).mp hm
    omega

/-- These rows too read zero, and no other changes. -/
theorem rangeZeroed_leaves (u : State) (g count : Nat) :
    let t := rangeZeroed u g count
    (∀ j < count, tileRow t.c (g + j) = List.replicate 128 0) ∧
      (∀ r, (r < g ∨ g + count ≤ r) → Rising u.c.tiles → tileRow t.c r = tileRow u.c r) ∧
      sameRegs u t ∧ follows u t ∧ Keeps [.tiles, .bad, .pc, .count] u t := by
  obtain ⟨bad, mended, h⟩ := clearBad_eq u ((List.range count).map (g + ·))
  simp only [rangeZeroed, h]
  refine ⟨fun j hj => tileRow_zeroRows_inside _ _ _ _ (by omega), fun r hr hs => tileRow_zeroRows_outside _ _ _ _ hs (by omega),
    fun _ => rfl, rfl, keeps_complete_tiles ?_⟩
  simp only [erased, List.foldl, Part.erase, modT, blankCore, zeroRows]

/-! ### A row that is read (R239), and a scale register (R240) -/

/-- A register that is named takes its value; the registers' values, the pending graph and its leaves are all that changes. -/
theorem nameReg_vreg (a : Arch) (v : Reg) (x : Val) : vreg (nameReg a v.toNat x) v = x ∧
    ∃ vs ms nodes leaves, nameReg a v.toNat x = { a with v := vs, m := ms, nodes := nodes, leaves := leaves } := by
  have hv : v.toNat < 32 := v.isLt
  unfold nameReg tidy setReg
  rw [if_pos hv]
  refine ⟨?_, _, a.m, _, _, rfl⟩
  simp [vreg]

/-- A register that is changed in place is logged at most (R276). -/
theorem logged_eq (s : State) (b : Bool) (r : Nat) : ∃ hist, (if b then logReg s r else s) =
    { s with t := { s.t with chunk := { s.t.chunk with hist := hist } } } := by
  cases b
  · exact ⟨s.t.chunk.hist, rfl⟩
  · exact ⟨_, rfl⟩

/-- A vector register that takes a value in place, with flags raised. -/
theorem nameInPlace_raise_leaves (u : State) (f : BitVec 6) (v : Reg) (x : Val) :
    let t := nameInPlace (raise u f) v.toNat x
    vreg t.t.a v = x ∧ t.t.a.fstat = u.t.a.fstat ||| f ∧ sameRegs u t ∧ follows u t ∧ Keeps [.vec, .fstat, .pc, .count] u t := by
  obtain ⟨hist, hl⟩ := logged_eq (raise u f) (regVal (raise u f).t.a v.toNat).resident v.toNat
  obtain ⟨hx, vs, ms, nodes, leaves, hn⟩ := nameReg_vreg (raise u f).t.a v x
  simp only [nameInPlace, nameThen, hl, modA]
  refine ⟨hx, ?_⟩
  rw [hn]
  refine ⟨rfl, fun _ => rfl, rfl, keeps_of _ _ _ (by decide) ?_⟩
  simp only [erased, List.foldl, Part.erase, modA, modT, complete, goTo, countOne, setPc, raise]

/-- The elements of row g in a type, and their flags. -/
def rowElems (u : State) (g : Nat) (i : BitVec 1) (q : BitVec 2) (r : BitVec 3) (ty : BitVec 4) : List (Lane × BitVec 6) :=
  (tileRow u.c g).map (readElem ty.toNat (if r.toNat ≠ 7 then r.toNat
    else if tyFloat ty.toNat then u.t.a.fctl.toNat % 8 else u.t.a.fxrm.toNat) (i == 1) (u.t.a.q.toList.getD q.toNat 0))

/-- MREAD of a row that the thread holds, without an error, the thread's steps over with their checks passed. -/
theorem exec_mread {s : State} {v a : Reg} {n q : BitVec 2} {i : BitVec 1} {r : BitVec 3} {ty : BitVec 4} {g : Nat}
    (hc : onComputeCore s) (hg : g = 128 * n.toNat + (rd s a).toNat) (ha : (rd s a).toNat < 128) (hh : holdsRow s g = true)
    (he : matrixError s [g] (some q.toNat) = none) (hk : checkFailed s (drainMatrix s) = false) :
    exec (.mread v a n i q r ty) s = .next (nameInPlace
      (raise (drainMatrix s) ((rowElems (drainMatrix s) g i q r ty).foldl (fun f e => f ||| e.2) 0)) v.toNat
      (residentVal ty.toNat ((rowElems (drainMatrix s) g i q r ty).map Prod.fst))) := by
  have hchecks : ¬ (128 ≤ (rd s a).toNat ∨ holdsRow s g = false) := by
    rw [hh]
    simpa using ha
  have hq : (drainMatrix s).t.a.q[q.toNat]'(by have := q.isLt; omega) = (drainMatrix s).t.a.q.toList.getD q.toNat 0 := by
    have hlt : q.toNat < 8 := by have := q.isLt; omega
    simp [hlt]
  have hexec : exec (.mread v a n i q r ty) s = execMread v a n i q r ty s := rfl
  rw [hexec]
  unfold execMread
  dsimp only
  rw [onCompute_core s _ _ hc, ← hg, if_neg hchecks, he]
  dsimp only
  rw [hk, hq]
  rfl

/-- The state that MSCALE leaves. -/
def scaled (s : State) (q : BitVec 3) (x : Word) : State :=
  complete (clearBad (modA s fun r => { r with q := r.q.set q.toNat (x.setWidth 32) q.isLt }) [scaleKey s q.toNat])

/-- The register takes the low half of X[A], and its error is all that changes with it. -/
theorem scaled_leaves (s : State) (q : BitVec 3) (x : Word) :
    (scaled s q x).t.a.q = s.t.a.q.set q.toNat (x.setWidth 32) q.isLt ∧ sameRegs s (scaled s q x) ∧ follows s (scaled s q x) ∧
      Keeps [.scale, .bad, .pc, .count] s (scaled s q x) := by
  obtain ⟨bad, mended, h⟩ := clearBad_eq (modA s fun r => { r with q := r.q.set q.toNat (x.setWidth 32) q.isLt }) [scaleKey s q.toNat]
  simp only [scaled, h]
  refine ⟨rfl, fun _ => rfl, rfl, keeps_of _ _ _ (by decide) ?_⟩
  simp only [erased, List.foldl, Part.erase, modA, modT, blankCore, complete, goTo, countOne, setPc]

/-! ### MZERO (R238) -/

/-- MZERO on a compute core. -/
theorem exec_mzero {s : State} {n : BitVec 2} {a b : Reg} {g count : Nat} (hc : onComputeCore s)
    (hg : g = 128 * n.toNat + (rd s a).toNat) (hn : count = (rd s b).toNat) :
    exec (.mzero n a b) s = .next (if count = 0 then complete s
      else if 128 ≤ (rd s a).toNat ∨ holdsRows s g count = false then illegal s (encode (.mzero n a b))
      else ownChunk (32 < count) s fun s =>
        if checkFailed s (drainMatrix s) then complete (drainMatrix s)
        else if 32 < count then rangeZeroed (drainMatrix s) g count else rowsZeroed (drainMatrix s) g count) := by
  have hexec : exec (.mzero n a b) s = execMzero n a b s := rfl
  rw [hexec]
  unfold execMzero
  dsimp only
  rw [onCompute_core s _ _ hc, ← hg, ← hn]
  congr 4
  funext u
  congr 1
  exact apply_ite complete _ _ _

/-- Settles O25: of each instruction the checks pass, and it leaves what its own lemma says. -/
theorem matrixRows : Obligations.MatrixRows := by
  unfold Obligations.MatrixRows
  refine ⟨?_, ?_⟩
  · intro s v a n u i q ty x depth g sl step entered enters hcore hres hlen hty ha howner hsecond hpoison
    have row {j : Instr} {slide acc : Bool} {w count : Nat} (hx : exec j s = rowOp w slide acc v a n i u q ty s)
        (hcount : count = if slide then max 1 (x.len + 1 - depth) else 1) : enters j acc count := fun hholds herror =>
      answers_of_stepsEntered (hx.trans (rowOp_enters hcore hres hlen hty ha howner hsecond hpoison rfl hcount hholds herror))
    exact ⟨row (slide := false) rfl rfl, row (slide := false) rfl rfl, row (slide := true) rfl rfl, row (slide := true) rfl rfl⟩
  · intro s v a b n q i q3 r ty count g u hcore
    have hzero := exec_mzero (s := s) (n := n) (a := a) (b := b) (g := g) (count := count) hcore rfl rfl
    have legal (ha : (rd s a).toNat < 128) (hholds : holdsRows s g count = true) :
        ¬ (128 ≤ (rd s a).toNat ∨ holdsRows s g count = false) := by
      rw [hholds]
      simpa using ha
    refine ⟨fun h0 => ?_, fun h0 h32 ha hholds hsorted hcheck => ?_, fun h32 ha hholds => ?_, ?_, ?_⟩
    · rw [if_pos h0] at hzero
      exact ⟨_, hzero, rfl, fun _ => rfl, keeps_complete s⟩
    · have hbig : ¬ 32 < count := Nat.not_lt.mpr h32
      have hk : checkFailed s (drainMatrix s) = false := hcheck
      simp only [if_neg (Nat.ne_of_gt h0), if_neg (legal ha hholds), ownChunk, hbig, decide_false, hk, Bool.false_eq_true, if_false] at hzero
      exact ⟨_, hzero, rowsZeroed_leaves u g count hsorted.tiles⟩
    · intro w hcheck
      have hk : checkFailed (commitOpen s) (drainMatrix (commitOpen s)) = false := hcheck
      simp only [if_neg (show count ≠ 0 by omega), if_neg (legal ha hholds), ownChunk, h32, decide_true, hk, Bool.false_eq_true, if_true, if_false]
        at hzero
      obtain ⟨hrows, hothers, hregs, hnext, hkeeps⟩ := rangeZeroed_leaves w g count
      exact ⟨_, hzero, _, rfl, hrows, fun r hr hs => hothers r hr hs.tiles, hregs, hnext, hkeeps⟩
    · intro j ha hholds herror hcheck
      exact ⟨_, exec_mread hcore rfl ha hholds herror hcheck, nameInPlace_raise_leaves u _ v _⟩
    · exact ⟨_, congrArg Host.Outcome.next (onCompute_core s _ _ hcore), scaled_leaves s q3 (rd s a)⟩

end Sys2Proof.Proofs
end

section
/-! Commits against a reservation (O49): one of the thread's own passes does not hold a commit back where that commits the last chunk of the thread's
completed pass first. -/

set_option Elab.async false

namespace Sys2Proof.Proofs

open Sys2Proof Sys2Proof.Machine Sys2Proof.Laws

/-! ### The event (R281) -/

/-- The commit of a thread's closed chunk, where slices grant and its core's clock runs. -/
theorem exec_chunkCommit_thread (s : State) (tid : Nat) (ht : tid < 336) (hs : s.stopped = false) (hc : coreUp s (coreOf tid)) :
    exec (.chunkCommit tid) s = .next (onThread s tid commitClosed) := by
  obtain ⟨hr, ho, hw, hg⟩ := hc
  have hthread : tid < 1048576 := by omega
  have hagent : agentCore tid = coreOf tid := if_pos hthread
  have hcore : ¬ 176 ≤ coreOf tid := by unfold coreOf; split <;> omega
  have hskip : (s.stopped || decide (176 ≤ agentCore tid)) = false := by simp [hs, hagent, hcore]
  refine congrArg Host.Outcome.next ((if_neg (by rw [hskip]; decide)).trans ?_)
  rw [hagent, arriveAt_running s _ _ _ hw hg hr ho]
  exact if_pos hthread

/-- Giving the turn marks no move. -/
theorem switchTo_outOfTurn (s : State) (tid : Nat) : (switchTo s tid).outOfTurn = s.outOfTurn := by
  unfold switchTo
  split
  · rfl
  · split <;> rfl

/-- What a signature holds it meets, whatever the hash (R279). -/
theorem sigMeets_line (i : Nat) : sigMeets [i] [] [i] [] = true := by
  have hbank : partsMeet [i] [i] = true := by simp [partsMeet]
  simp [sigMeets, hbank]

/-! ### The counterexample -/

/-- The first line of core 0's TCM, which belongs to slice 0 (R280). -/
def tcmLine : Nat := 70368744177664

/-- The last chunk of a completed pass, which has read the line. -/
def lineRead : Chunk := { Chunk.empty 0 0 with readL := [tcmLine] }

/-- The thread's closed chunk, which has stored a byte in the line after that. -/
def lineStored : Chunk := { Chunk.empty 0 0 with writeL := [tcmLine], writes := [(64 * tcmLine, 1)], lines := [tcmLine], count := 1 }

/-- The pass, at the start of its chunk. -/
def oneGroupPass : Pass :=
  { sinks := [], len := 16, captureOnly := false, completes := true, fpc := 0, start := Vector.replicate 4 0, next := Vector.replicate 4 0,
    clock := 0, ends := [], watch := [], chunks := 0, began := 0, st := Saved.empty, ftz := false, xq := false, tally := Tally.zero,
    lost := Vector.replicate 4 0, skipped := none }

/-- What it has kept for that chunk. -/
def passOver : Redo :=
  { a := Arch.reset 0, p := oneGroupPass, stop := Vector.replicate 4 16, chunk := some lineRead, kept := [], lvl := .h, flags := 0,
    slots := Vector.replicate 4 (0, 0), rest := none, effort := Effort.zero, vs := false, vv := false }

/-- Thread 0 at H, its store closed and still to commit, its completed pass too, and slice 0 reserved by its passes. -/
def reservedByPasses : State :=
  { State.reset with
    cur := 0, c := { Core.reset 0 with waits := false }, held := [(0, passAgent 0)],
    t := { Thread.reset 0 with
      run := .running, lvl := .h, closed := some lineStored, chunk := Chunk.empty 0 1, redo := some passOver,
      passEffort := { Effort.zero with reserving := true, wanted := [0] } } }

/-- The pass has read what the closed chunk writes. -/
theorem readBefore_lineStored : readBefore reservedByPasses.t lineStored = true := sigMeets_line tcmLine

/-- The pass's chunk commits first, which gives the slice back: nothing is in the way of the closed chunk then. -/
theorem commitClosed_reservedByPasses : (commitClosed reservedByPasses).outOfTurn = false := by
  unfold commitClosed
  have hc : reservedByPasses.t.closed = some lineStored := rfl
  simp only [hc, readBefore_lineStored, if_true]
  decide +kernel

/-- Refutes O49, in its clause on a commit against a reservation: where a slice of a thread's closed chunk is reserved by the thread's own
passes, an agent other than the thread, and the last chunk of its completed pass has read what the closed chunk writes, that chunk commits
first; this gives the slice back, and the closed chunk's commit takes place unmarked. -/
theorem not_unitsComplete : ¬ Obligations.UnitsComplete := by
  unfold Obligations.UnitsComplete
  intro h
  have hup : coreUp reservedByPasses (coreOf 0) := ⟨rfl, rfl, rfl, rfl⟩
  obtain ⟨-, -, hcommit, -⟩ := h reservedByPasses 0 0 0 0
  obtain ⟨-, hclosed⟩ := hcommit (by decide) rfl hup
  obtain ⟨hmarked, -⟩ := hclosed lineStored rfl
  obtain ⟨t, ht, hmark⟩ := hmarked ⟨(0, passAgent 0), List.mem_singleton.mpr rfl, by decide, by decide⟩
  have hexec := exec_chunkCommit_thread reservedByPasses 0 (by decide) rfl hup
  have hstate : switchTo (commitClosed reservedByPasses) 0 = switchTo t 0 := by
    injection hexec.symm.trans ht
  have hout := congrArg State.outOfTurn hstate
  rw [switchTo_outOfTurn, switchTo_outOfTurn, commitClosed_reservedByPasses, hmark] at hout
  exact absurd hout (by decide)

end Sys2Proof.Proofs
end

section
/-! The copy engines' instructions (O26) and the event flags (O27). -/

set_option Elab.async false

namespace Sys2Proof.Proofs

open Sys2Proof Sys2Proof.Machine Sys2Proof.Laws

/-! ### ACOPY and ACOPYT (R253, R257, R258) -/

/-- An engine instruction whose flag is outstanding, or whose core has no room, stalls. -/
theorem whenFree_busy {s : State} {k : BitVec 4} (f : State → State) (h : engineBusy s k.toNat = true) :
    whenFree s k f = modT s fun t => { t with stall := .engine k.toNat } := if_pos h

/-- Another one acts. -/
theorem whenFree_free {s : State} {k : BitVec 4} (f : State → State) (h : engineBusy s k.toNat = false) :
    whenFree s k f = f s := if_neg (by simp [h])

/-- A new stall changes the stall alone. -/
theorem keeps_stall (s : State) (w : Stall) : Keeps [.stall] s (modT s fun t => { t with stall := w }) :=
  keeps_of _ _ _ (by decide) rfl

/-- What an instruction that waits for its engine's flag leaves. -/
theorem answers_whenFree_busy {s : State} {k : BitVec 4} {i : Instr} {f : State → State} (he : exec i s = .next (whenFree s k f))
    (h : engineBusy s k.toNat = true) : Answers i s fun t => t.t.stall = .engine k.toNat ∧ Keeps [.stall] s t :=
  ⟨_, he.trans (congrArg _ (whenFree_busy f h)), rfl, keeps_stall s _⟩

/-- What an operation that is issued leaves. -/
structure Issued (u t : State) (k : BitVec 4) (o : EngineOp) : Prop where
  /-- The operation waits behind those that are outstanding. -/
  engines : t.engines = u.engines ++ [o]
  /-- DONE k is clear. -/
  done : t.t.a.done = u.t.a.done &&& ~~~(BitVec.ofNat 16 (2 ^ k.toNat))
  /-- FAULT k is clear. -/
  efault : t.t.a.efault = u.t.a.efault &&& ~~~(BitVec.ofNat 16 (2 ^ k.toNat))
  /-- The status word says outstanding. -/
  evs : t.t.a.evs = u.t.a.evs.set k.toNat (BitVec.ofNat 64 (14 * 2 ^ 60)) k.isLt
  /-- The commit of the chunk lets the operation begin. -/
  out : t.t.chunk.out = u.t.chunk.out ++ [.engine u.cur k.toNat]
  regs : sameRegs u t
  next : follows u t
  frame : Keeps [.engines, .events, .out, .pc, .count] u t

/-- An operation is issued. -/
theorem issued_issueEngine (u : State) (k : BitVec 4) (o : EngineOp) : Issued u (issueEngine u k o) k o :=
  { engines := rfl
    done := rfl
    efault := by simp only [issueEngine, complete_a_efault, modT, modA]
    evs := rfl
    out := rfl
    regs := fun _ => rfl
    next := rfl
    frame := keeps_of _ _ _ (by decide) (by
      simp only [erased, List.foldl, Part.erase, issueEngine, complete, goTo, countOne, setPc, modT, modA]) }

/-- The operation that ACOPY or ACOPYT issues. -/
def copyOp (u : State) (d a : Reg) (k : BitVec 4) (n : Nat) (sh : Option (Shape × Shape)) : EngineOp :=
  { tid := u.cur, k := k.toNat, src := rd u a, dst := rd u d, count := n, shapes := sh, go := false, result := none, pos := 0,
    chunks := 0, chunk := none, was := [], effort := Effort.zero }

/-- ACOPYT whose shape records have been read. -/
theorem exec_acopyt_read {s u1 u2 : State} {d a b : Reg} {k : BitVec 4} {v w : Nat} (ha : (rd s b).toNat % 128 = 0)
    (hf : engineBusy s k.toNat = false) (h1 : loadNat s (rd s b) 64 = (u1, .ok v)) (h2 : loadNat u1 (rd u1 b + 64) 64 = (u2, .ok w)) :
    exec (.acopyt d a b k) s = .next (issueEngine u2 k (copyOp u2 d a k 0 (some (shapeOf v, shapeOf w)))) := by
  refine congrArg Host.Outcome.next ((aligned_holds _ _ _ _ ha).trans ((whenFree_free _ hf).trans ?_))
  simp only [h1, h2]
  rfl

/-- Settles O26: both instructions wait where the flag is outstanding or the core has no room, and issue their operation otherwise; the shape
records of ACOPYT are read in between. -/
theorem copiesAreIssued : Obligations.CopiesAreIssued := by
  unfold Obligations.CopiesAreIssued
  intro s d a b k issues op
  have hissues (u : State) (o : EngineOp) : issues u (issueEngine u k o) o := by
    obtain ⟨h1, h2, h3, h4, h5, h6, h7, h8⟩ := issued_issueEngine u k o
    exact ⟨h1, h2, h3, h4, h5, h6, h7, h8⟩
  refine ⟨answers_whenFree_busy rfl, fun hf => ?_, fun hm => ?_, fun ha => ?_, fun u1 u2 v w ha hf h1 h2 => ?_⟩
  · exact ⟨_, congrArg Host.Outcome.next (whenFree_free _ hf), hissues s _⟩
  · exact congrArg Host.Outcome.next (aligned_fails _ _ _ _ hm)
  · exact answers_whenFree_busy (congrArg Host.Outcome.next (aligned_holds _ _ _ _ ha))
  · exact ⟨_, exec_acopyt_read ha hf h1 h2, hissues u2 _⟩

/-! ### Event flags (R260 to R262) -/

/-- Bit j of a set of flags from which flag k has been taken. -/
theorem getLsbD_clear (x : BitVec 16) (k : BitVec 4) (j : Nat) :
    (x &&& ~~~(BitVec.ofNat 16 (2 ^ k.toNat))).getLsbD j = (x.getLsbD j && decide (j ≠ k.toNat)) := by
  simp only [BitVec.getLsbD_and, BitVec.getLsbD_not, BitVec.getLsbD_ofNat, Nat.testBit_two_pow]
  by_cases hj : j < 16
  · simp [hj, eq_comm]
  · simp [BitVec.getLsbD_of_ge x j (by omega), hj]

/-- A taken branch jumps. -/
theorem jumped_branchTo (s : State) (p : Nat) : Jumped s (branchTo s p) p := by
  obtain ⟨ring, n, laps, h⟩ := traceRec_cases s 1 false s.t.a.pc (wd p) 0
  refine ⟨branchTo_pc s p, ?_, ?_⟩
  · intro r
    simp only [branchTo, h, rd_goTo]
    rfl
  · refine keeps_of _ _ _ (by decide) ?_
    simp only [branchTo, h]
    rfl

/-- The target of a branch relative to the program counter. -/
theorem relTarget_eq (pc : Nat) (off : Int) : relTarget pc off = (((pc : Int) + 4 * off) % 2 ^ 64).toNat := BitVec.toNat_ofInt _

/-- The state in which EVCLR has cleared flag k. -/
def flagCleared (s : State) (k : BitVec 4) : State :=
  modA s fun a => { a with done := a.done &&& ~~~(BitVec.ofNat 16 (2 ^ k.toNat)), efault := a.efault &&& ~~~(BitVec.ofNat 16 (2 ^ k.toNat)),
                           evs := a.evs.set k.toNat 0 k.isLt }

/-- EVCLR of a flag with no operation outstanding takes its status word and clears it. -/
theorem exec_evclr_free (s : State) (d : Reg) (k : BitVec 4) (h : (outstanding s).contains k.toNat = false) :
    exec (.evclr d k) s = .next (complete (wr (flagCleared s k) d (s.t.a.evs[k.toNat]'(k.isLt)))) :=
  congrArg Host.Outcome.next (if_neg (by rw [h]; decide))

/-- A register write beside the event flags. -/
theorem keeps_flagCleared (s : State) (d : Reg) (k : BitVec 4) (v : Word) :
    Keeps [.x, .events, .pc, .count] s (complete (wr (flagCleared s k) d v)) := by
  refine keeps_of _ _ _ (by decide) ?_
  unfold wr
  split
  · simp only [erased, List.foldl, Part.erase, flagCleared, complete, goTo, countOne, setPc, modT, modA]
  · simp only [erased, List.foldl, Part.erase, flagCleared, complete, goTo, countOne, setPc, modT, modA]

/-- Settles O27, by DONE k and by whether an operation on flag k is outstanding; of BEV by its bit. -/
theorem eventFlags : Obligations.EventFlags := by
  unfold Obligations.EventFlags
  intro s d kr c k o done out word
  refine ⟨fun hd => ?_, fun hd ho => ?_, fun hd ho => ?_, fun ho => ?_, fun ho => ?_, fun ht => ?_, fun ht => ?_⟩
  · exact ⟨_, congrArg Host.Outcome.next (if_pos hd), wroteReg_complete_wr s d word⟩
  · have hn : ¬ s.t.a.done.getLsbD k.toNat = true := fun e => absurd (e.symm.trans hd) (by decide)
    exact ⟨_, congrArg Host.Outcome.next ((if_neg hn).trans (if_pos ho)), rfl, keeps_stall s _⟩
  · have hn : ¬ s.t.a.done.getLsbD k.toNat = true := fun e => absurd (e.symm.trans hd) (by decide)
    have hf : ¬ (outstanding s).contains k.toNat = true := fun e => absurd (e.symm.trans ho) (by decide)
    exact ⟨_, congrArg Host.Outcome.next ((if_neg hn).trans (if_neg hf)), wroteReg_complete_wr s d _⟩
  · exact ⟨_, congrArg Host.Outcome.next (if_pos ho), wroteReg_complete_wr s d _⟩
  · obtain ⟨hr, hothers, hpc, -, -⟩ := wroteReg_complete_wr (flagCleared s k) d word
    refine ⟨_, exec_evclr_free s d k ho, ⟨hr, hothers⟩, ?_, ?_, ?_, ?_, hpc, keeps_flagCleared s d k word⟩
    · rw [complete_a_done, wr_a_done]
      exact (getLsbD_clear _ k _).trans (by simp)
    · rw [complete_a_efault, wr_a_efault]
      exact (getLsbD_clear _ k _).trans (by simp)
    · rw [complete_a_evs, wr_a_evs]
      rfl
    · intro j _ hj
      rw [complete_a_done, wr_a_done, complete_a_efault, wr_a_efault]
      exact ⟨(getLsbD_clear _ k j).trans (by simp [hj]), (getLsbD_clear _ k j).trans (by simp [hj])⟩
  · refine ⟨_, congrArg Host.Outcome.next (if_pos ht), ?_⟩
    rw [relTarget_eq]
    exact jumped_branchTo s _
  · exact ⟨_, congrArg Host.Outcome.next (if_neg ht), rfl, fun _ => rfl, keeps_complete s⟩

end Sys2Proof.Proofs
end

section
/-! Device registers, and what writes none of them (O52). -/

set_option Elab.async false

namespace Sys2Proof.Proofs

open Sys2Proof Sys2Proof.Machine Sys2Proof.Laws

/-! ### A device register after a write -/

/-- A value that is set keeps the order. -/
theorem rising_spSet {α : Type} [DecidableEq α] (d : α) (l : List (Nat × α)) (k : Nat) (v : α) (h : Rising l) :
    Rising (spSet d l k v) := by
  unfold spSet
  split
  · exact rising_spDel l k h
  · exact rising_spPut l k v h

/-- A register reads what has been put there. -/
theorem devGet_devPut_same (s : State) (pa : Nat) (v : Word) (h : Rising s.dev) : devGet (devPut s pa v) pa = v := by
  unfold devGet devPut spSet
  dsimp only
  split
  · next hv => rw [spGet_spDel _ _ _ _ h, if_pos rfl, hv]
  · rw [spGet_spPut, if_pos rfl]

/-- Every other one reads as it did. -/
theorem devGet_devPut_other (s : State) (pa p : Nat) (v : Word) (h : Rising s.dev) (hp : p ≠ pa) :
    devGet (devPut s pa v) p = devGet s p := by
  unfold devGet devPut spSet
  dsimp only
  split
  · rw [spGet_spDel _ _ _ _ h, if_neg hp]
  · rw [spGet_spPut, if_neg hp]

/-- A register's value depends on the list of registers alone. -/
theorem devGet_congr {s t : State} (h : t.dev = s.dev) (pa : Nat) : devGet t pa = devGet s pa := by
  unfold devGet
  rw [h]

/-- A register that is put changes the list of registers alone. -/
theorem devPut_rest (s : State) (pa : Nat) (v : Word) : { devPut s pa v with dev := s.dev } = s := rfl

/-! ### What writes no device register -/

/-- The device registers, the mode of the journal and the resets that wait are as they were. -/
structure SameDev (s t : State) : Prop where
  dev : t.dev = s.dev
  jmode : t.jmode = s.jmode
  resets : t.resets = s.resets

namespace SameDev

/-- Nothing has been done. -/
theorem refl (s : State) : SameDev s s := ⟨rfl, rfl, rfl⟩

/-- One after the other. -/
theorem trans {s t u : State} (h : SameDev s t) (k : SameDev t u) : SameDev s u :=
  ⟨k.dev.trans h.dev, k.jmode.trans h.jmode, k.resets.trans h.resets⟩

/-- Over a list. -/
theorem foldl {α : Type} {f : State → α → State} (h : ∀ s x, SameDev s (f s x)) (l : List α) (s : State) :
    SameDev s (l.foldl f s) := by
  induction l generalizing s with
  | nil => exact .refl s
  | cons x l ih => exact (h s x).trans (ih _)

/-- The turn that goes to another thread. -/
theorem switch (s : State) (tid : Nat) : SameDev s (switchTo s tid) := by
  unfold switchTo
  split
  · exact .refl s
  · split <;> exact ⟨rfl, rfl, rfl⟩

/-- What is acted as a thread. -/
theorem thread {f : State → State} (h : ∀ u, SameDev u (f u)) (s : State) (tid : Nat) : SameDev s (onThread s tid f) :=
  (switch s tid).trans ((h _).trans (switch _ _))

/-- A change of another core's record. -/
theorem core (s : State) (i : Nat) (c : Core) : SameDev s (putCore s i c) := by
  unfold putCore
  split <;> exact ⟨rfl, rfl, rfl⟩

/-- A change of another thread's record. -/
theorem record (s : State) (i : Nat) (t : Thread) : SameDev s (putThread s i t) := by
  unfold putThread
  split <;> exact ⟨rfl, rfl, rfl⟩

end SameDev

/-- A trace record writes no register. -/
theorem sameDev_traceAt (lvl : Level) (s : State) (ty : Nat) (b : Bool) (pc : Nat) (x y : Word) :
    SameDev s (traceAt lvl s ty b pc x y) := by
  unfold traceAt
  split
  · exact .refl s
  · split
    · exact .refl s
    · exact ⟨rfl, rfl, rfl⟩

/-- Nor do bytes of memory. -/
theorem sameDev_pokeByte (s : State) (k : Nat) (b : Byte) : SameDev s (pokeByte s k b) := by
  unfold pokeByte renewLine
  dsimp only
  split
  · exact ⟨rfl, rfl, rfl⟩
  · exact ⟨rfl, rfl, rfl⟩

/-- So no list of bytes. -/
theorem sameDev_pokeAll (l : List (Nat × Byte)) : ∀ s, SameDev s (pokeAll s l) := by
  induction l with
  | nil => exact .refl
  | cons e l ih => exact fun s => (sameDev_pokeByte s e.1 e.2).trans (ih (pokeByte s e.1 e.2))

/-- Nor does a count of the statistics. -/
theorem sameDev_bumpStat (s : State) (i n : Nat) : SameDev s (bumpStat s i n) := ⟨rfl, rfl, rfl⟩

/-! ### Squashes and broadcasts write no register -/

/-- The escalation of a chunk that keeps failing (R287) writes none. -/
theorem sameDev_escalate (s : State) (foot : List Nat) : SameDev s (escalate s foot) := by
  unfold escalate
  dsimp only
  split
  · exact ⟨rfl, rfl, rfl⟩
  · split
    · exact ⟨rfl, rfl, rfl⟩
    · exact .refl s

/-- Nor does a chunk limit that is halved. -/
theorem sameDev_halve (s : State) (p : Prop) [Decidable p] : SameDev s (if p then modT s halveEff else s) := by
  split
  · exact ⟨rfl, rfl, rfl⟩
  · exact .refl s

/-- Nor does a squash of the scalar chunks. -/
theorem sameDev_squash (s : State) (older wrong : Bool) : SameDev s (squash s older wrong) := by
  unfold squash
  extract_lets t ct old first n oldest bad c1 c2 sls mended c c3 out s1 s2 s3 note s4
  have hnote (u : State) (c : Chunk) : SameDev u (note u c) := sameDev_traceAt _ u _ _ _ _ _
  have h3 : SameDev s s3 := ⟨rfl, rfl, rfl⟩
  have h4 : SameDev s s4 := by
    by_cases hn : n = 2
    · simp only [s4, if_pos hn]
      exact h3.trans ((hnote s3 first).trans (hnote _ t.chunk))
    · simp only [s4, if_neg hn]
      exact h3.trans (hnote s3 first)
  clear_value s4
  split
  · exact h4.trans (sameDev_escalate s4 _)
  · exact h4

/-- Nor does one of a pass. -/
theorem sameDev_squashPass (s : State) (wrong : Bool) : SameDev s (squashPass s wrong) := by
  unfold squashPass
  split
  · exact .refl s
  · extract_lets foot bad s1 s1' n s2
    have h1 : SameDev s s1' := ⟨rfl, rfl, rfl⟩
    have h2 : SameDev s s2 := h1.trans (sameDev_halve s1' _)
    clear_value s2
    exact h2.trans ((sameDev_bumpStat s2 1 1).trans ((sameDev_bumpStat _ 2 _).trans (sameDev_traceAt _ _ _ _ _ _ _)))

/-- Nor do slots that are counted as stalled. -/
theorem sameDev_stallSlots (s : State) (v : Vector (Nat × Nat) 4) : SameDev s (stallSlots s v) := by
  have hadd (u : State) (c k : Nat) (n : Word) : SameDev u (addLane u c k n) := ⟨rfl, rfl, rfl⟩
  exact .foldl (fun u c => (hadd u c 0 _).trans ((hadd _ c 1 _).trans (hadd _ c 4 _))) _ s

/-- Nor does a sealed chunk that is dropped. -/
theorem sameDev_dropSealed (s : State) (wrong : Bool) : SameDev s (dropSealed s wrong) := by
  unfold dropSealed
  split
  · exact .refl s
  · split
    · exact .refl s
    · extract_lets e s1 s2 s3
      have h2 : SameDev s s2 := ⟨rfl, rfl, rfl⟩
      have h3 : SameDev s s3 := h2.trans (sameDev_halve s2 _)
      clear_value s3
      exact h3.trans ((sameDev_stallSlots s3 _).trans ((sameDev_bumpStat _ 1 1).trans ((sameDev_bumpStat _ 2 _).trans
        (sameDev_traceAt _ _ _ _ _ _ _))))

/-- Nor does a broadcast that one agent receives. -/
theorem sameDev_broadcastTo (agent : Nat) (long : Bool) (wl wg : List Nat) (s : State) (tid : Nat) :
    SameDev s (broadcastTo agent long wl wg s tid) := by
  unfold broadcastTo
  extract_lets l g seen wrong
  refine .thread (fun u => ?_) s tid
  extract_lets s1 s2 s3
  have h1 : SameDev u s1 := by
    simp only [s1]
    split
    · exact .refl u
    · split
      · split
        · exact sameDev_squash u _ _
        · split
          · exact sameDev_squash u _ _
          · exact .refl u
      · split
        · exact sameDev_squash u _ _
        · exact .refl u
  clear_value s1
  have h2 : SameDev u s2 := by
    simp only [s2]
    split
    · exact h1
    · split
      · exact h1.trans (sameDev_squashPass s1 _)
      · exact h1
  clear_value s2
  have h3 : SameDev u s3 := by
    simp only [s3]
    split
    · exact h2
    · split
      · exact h2.trans (sameDev_dropSealed s2 _)
      · exact h2
  clear_value s3
  refine h3.trans (.foldl (fun v e => ?_) _ s3)
  split
  · exact .refl v
  · split
    · exact ⟨rfl, rfl, rfl⟩
    · exact .refl v

/-- So none that is sent. -/
theorem sameDev_broadcast (s : State) (agent : Nat) (wl wg : List Nat) : SameDev s (broadcast s agent wl wg) := by
  unfold broadcast
  split
  · exact .refl s
  · extract_lets long
    refine .foldl (fun v tid => ?_) _ s
    extract_lets c
    split
    · exact .core v _ _
    · exact sameDev_broadcastTo agent long wl wg v tid

/-- Nor does the end of a wait on a line. -/
theorem sameDev_wakeWaiters (s : State) (lines : List Nat) : SameDev s (wakeWaiters s lines) := by
  unfold wakeWaiters
  split
  · exact .refl s
  · exact ⟨rfl, rfl, rfl⟩

/-! ### Translations write no register -/

/-- A translation that is kept writes none. -/
theorem sameDev_tlbPut (s : State) (w : Who) (va : Nat) (e : TlbEntry) : SameDev s (tlbPut s w va e) := by
  unfold tlbPut
  split
  · exact ⟨rfl, rfl, rfl⟩
  · split
    · exact .refl s
    · exact ⟨rfl, rfl, rfl⟩

/-- Nor does a leaf in use, whose accessed and dirty bits may be set. -/
theorem sameDev_useLeaf (s : State) (w : Who) (kind : Kind) (va : Nat) (l : Leaf3) : SameDev s (useLeaf s w kind va l) := by
  unfold useLeaf
  extract_lets d b b' s1 e s2
  have h1 : SameDev s s1 := by
    simp only [s1]
    split
    · exact .refl s
    · cases l.pos with
      | none => exact .refl s
      | some p =>
        obtain ⟨hd, hj, hr⟩ := sameDev_pokeByte s p (BitVec.ofNat 8 b')
        exact ⟨hd, hj, hr⟩
  clear_value s1
  have h2 : SameDev s s2 := h1.trans (sameDev_tlbPut s1 w va e)
  split
  · exact h2.trans (sameDev_tlbPut s2 w va _)
  · exact h2

/-- So no translation that is asked for. -/
theorem sameDev_demand (s : State) (w : Who) (kind : Kind) (a : Word) : SameDev s (demand s w kind a).1 := by
  unfold demand
  split
  · exact .refl s
  · next k l _ =>
    split
    · exact .refl s
    · cases l with
      | none => exact .refl s
      | some l => exact sameDev_useLeaf s w kind a.toNat l

/-! ### Nor do the groups of a pass that are evaluated -/

/-- What an evaluation leaves, or the fault that ends it, writes no device register. -/
def KeepsDev {α : Type} (f : α → State) (s : State) (x : Except PassFault α) : Prop :=
  match x with
  | .error e => SameDev s e.s
  | .ok a => SameDev s (f a)

namespace KeepsDev

variable {α : Type} {f : α → State} {s : State} {x : Except PassFault α}

/-- A fault's module. -/
theorem of_error {e : PassFault} (h : KeepsDev f s x) (hx : x = .error e) : SameDev s e.s := by
  subst hx
  exact h

/-- A result's module. -/
theorem of_ok {a : α} (h : KeepsDev f s x) (hx : x = .ok a) : SameDev s (f a) := by
  subst hx
  exact h

/-- An evaluation that follows another. -/
theorem after {t : State} (h : SameDev s t) (k : KeepsDev f t x) : KeepsDev f s x := by
  cases x with
  | error e => exact h.trans k
  | ok a => exact h.trans k

/-- A result that is changed, its module kept. -/
theorem map {β : Type} {g : α → β} {f' : β → State} (hg : ∀ a, f' (g a) = f a) (k : KeepsDev f s x) : KeepsDev f' s (x.map g) := by
  cases x with
  | error e => exact k
  | ok a => exact (congrArg (SameDev s) (hg a)).mpr k

end KeepsDev

/-- An address that a group reaches. -/
theorem sameDev_reach (w : Work) (kind : Kind) (va : Word) : SameDev w.s (w.reach kind va).1 := by
  have hfresh := sameDev_demand w.s (who w.s) kind va
  unfold Work.reach
  dsimp only
  split
  · exact hfresh
  · split
    · split
      · exact .refl _
      · exact hfresh
    · split
      · exact hfresh
      · split
        · exact hfresh
        · exact .refl _

/-- The place of an element. -/
theorem keepsDev_passPlace (w : Work) (g : Tag) (kind : Kind) (uses : Bool) (va : Word) (n : Nat) (line : Bool) :
    KeepsDev (fun r => r.1.s) w.s (passPlace w g kind uses va n line) := by
  have h := sameDev_reach w kind va
  unfold passPlace
  split
  · next heq =>
    rw [heq] at h
    exact h
  · next heq =>
    rw [heq] at h
    split
    · exact h
    · split
      · exact h
      · exact h

/-- An element that is read. -/
theorem keepsDev_passRead (w : Work) (g : Tag) (ty e : Nat) (va : Word) (line : Bool) :
    KeepsDev (fun r => r.1.s) w.s (passRead w g ty e va line) := by
  have h := keepsDev_passPlace w g .read true va (tyBytes ty) line
  unfold passRead
  split
  · next heq => exact h.of_error heq
  · next heq => exact h.of_ok heq

/-- An element that is written. -/
theorem keepsDev_passWrite (w : Work) (g : Tag) (ty e : Nat) (va : Word) (line : Bool) (l : Lane) :
    KeepsDev Work.s w.s (passWrite w g ty e va line l) := by
  have h := keepsDev_passPlace w g .write (decide (tyBits ty < 8)) va (tyBytes ty) line
  unfold passWrite
  split
  · next heq => exact h.of_error heq
  · next heq => exact h.of_ok heq

/-- The captured loads. -/
theorem keepsDev_readCaps (e : Nat) (l : List Val) : ∀ (w : Work) (env : Env), KeepsDev (fun r => r.1.s) w.s (readCaps w e env l) := by
  induction l with
  | nil => exact fun w _ => .refl w.s
  | cons v l ih =>
    intro w env
    unfold readCaps
    split
    · split
      · exact ih w env
      · next b _ _ =>
        extract_lets g
        have h := keepsDev_passRead w g v.ty e (elemAddr b .unit v.ty e 0 0) false
        split
        · next heq => exact h.of_error heq
        · next heq => exact (ih _ _).after (h.of_ok heq)
    · exact ih w env

/-- The fields of a leaf. -/
theorem keepsDev_readLeaf (l : Leaf) (e : Nat) (n : Nat) : ∀ (w : Work) (env : Env) (f : Nat),
    KeepsDev (fun r => r.1.s) w.s (readLeaf w l e env f n) := by
  induction n with
  | zero => exact fun w _ _ => .refl w.s
  | succ n ih =>
    intro w env f
    unfold readLeaf
    extract_lets g line va
    have h := keepsDev_passRead w g l.ty e va line
    split
    · next heq =>
      have hf := h.of_error heq
      split
      · exact hf
      · exact hf
    · next heq => exact (ih _ _ _).after (h.of_ok heq)

/-- A node's operation leaves the module itself. -/
theorem runNode_s (w : Work) (n : Node) (nodes : List Node) (e : Nat) (env : Env) (occ : Occ) :
    (runNode w n nodes e env occ).1.s = w.s := by
  unfold runNode
  dsimp only
  split
  · rfl
  · split
    · rfl
    · split
      · split <;> rfl
      · split <;> rfl

/-- The leaves and nodes of a graph. -/
theorem keepsDev_runParts (nodes : List Node) (side : List Nat) (e : Nat) (l : List GraphPart) : ∀ (w : Work) (env : Env) (occ : Occ × Occ),
    KeepsDev (fun r => r.1.s) w.s (runParts w nodes side e env occ l) := by
  induction l with
  | nil => exact fun w _ _ => .refl w.s
  | cons p l ih =>
    intro w env occ
    cases p with
    | leaf x =>
      unfold runParts
      split
      · exact ih w env occ
      · have h := keepsDev_readLeaf x e x.fields w env 0
        split
        · next heq => exact h.of_error heq
        · next heq => exact (ih _ _ _).after (h.of_ok heq)
    | node n =>
      unfold runParts
      extract_lets r
      have h := ih r.1 r.2.1 (occ.1.plus r.2.2, if side.contains n.id then occ.2.plus r.2.2 else occ.2)
      rwa [runNode_s] at h

/-- An element of a scatter. -/
theorem keepsDev_scatterElem (w : Work) (g : Tag) (op : RedOp) (ty : Nat) (ftz : Bool) (e : Nat) (va : Word) (v : Lane) :
    KeepsDev Work.s w.s (scatterElem w g op ty ftz e va v) := by
  have h := keepsDev_passPlace w g .amo true va (tyBytes ty) true
  unfold scatterElem
  split
  · exact .refl w.s
  · split
    · next heq => exact h.of_error heq
    · next heq => exact .map (fun _ => rfl) (.after (h.of_ok heq) (keepsDev_passWrite _ g ty e va true _))

/-- The fields of a store. -/
theorem keepsDev_storeFields (g : Tag) (base : Word) (lay : Layout) (e : Nat) (line : Bool) (env : Env) (l : List Val) :
    ∀ (w : Work) (f : Nat), KeepsDev Work.s w.s (storeFields w g base lay e f line env l) := by
  induction l with
  | nil => exact fun w _ => .refl w.s
  | cons v l ih =>
    intro w f
    have h := keepsDev_passWrite w g v.ty e (elemAddr base lay v.ty e f (indexAt lay env e)) line (v.at env e)
    unfold storeFields
    split
    · next heq => exact h.of_error heq
    · next heq => exact (ih _ _).after (h.of_ok heq)

/-- A sink, by its kind. -/
theorem keepsDev_runSink (w : Work) (p : Pass) (i : Nat) (k : Sink) (e : Nat) (env : Env) :
    KeepsDev Work.s w.s (runSink w p i k e env) := by
  unfold runSink
  split
  · exact .refl w.s
  · extract_lets on g v x
    split
    · split
      · exact .refl w.s
      · exact keepsDev_storeFields g _ _ e _ env k.srcs w 0
    · split
      · exact .refl w.s
      · exact keepsDev_scatterElem w g _ _ _ e _ _
    · split
      · exact .refl w.s
      · exact .refl w.s
    · exact .refl w.s
    · exact keepsDev_passWrite w g _ e _ _ _
    · exact .refl w.s

/-- All sinks. -/
theorem keepsDev_runSinks (p : Pass) (e : Nat) (env : Env) (l : List Sink) : ∀ (w : Work) (i : Nat),
    KeepsDev Work.s w.s (runSinks w p e env i l) := by
  induction l with
  | nil => exact fun w _ => .refl w.s
  | cons k l ih =>
    intro w i
    have h := keepsDev_runSink w p i k e env
    unfold runSinks
    split
    · next heq => exact h.of_error heq
    · next heq => exact (ih _ _).after (h.of_ok heq)

/-- The elements of a group. -/
theorem keepsDev_runElems (p : Pass) (parts : List GraphPart) (nodes : List Node) (side : List Nat) (caps : List Val) (n : Nat) :
    ∀ (w : Work) (e : Nat), KeepsDev Work.s w.s (runElems w p parts nodes side caps e n) := by
  induction n with
  | zero => exact fun w _ => .refl w.s
  | succ n ih =>
    intro w e
    have h1 := keepsDev_readCaps e caps w (Env.start w.st.heads)
    unfold runElems
    split
    · next heq => exact h1.of_error heq
    · next w1 env1 heq =>
      have h2 := keepsDev_runParts nodes side e parts w1 env1 (Occ.zero, Occ.zero)
      refine .after (h1.of_ok heq) ?_
      split
      · next heq2 => exact h2.of_error heq2
      · next w2 env2 occ heq2 =>
        refine .after (h2.of_ok heq2) ?_
        have h3 := keepsDev_runSinks p e env2 p.sinks { w2 with els := ⟨occ.1, occ.2, anySink p e env2, depthOf nodes env2 e⟩ :: w2.els } 0
        split
        · next heq3 => exact h3.of_error heq3
        · next heq3 => exact (ih _ _).after (h3.of_ok heq3)

/-- The groups of a pass that are done again. -/
theorem keepsDev_workAgain (k thr : Nat) (g : Plan) (bar : Chunk → Bool) (stop : Chunk → Pass → Bool) (l : List Nat) :
    ∀ (p : Pass) (w : Work), KeepsDev (fun r => r.1.s) w.s (workAgain k thr g bar stop p w l) := by
  induction l with
  | nil => exact fun _ w => .refl w.s
  | cons first l ih =>
    intro p w
    unfold workAgain
    extract_lets c q p1
    split
    · split
      · exact .refl w.s
      · exact ih p1 w
    · have h := keepsDev_runElems p g.parts g.nodes g.side g.caps (Nat.min 16 (p.len - first)) { w with els := [], rem := [] } first
      split
      · next heq => exact h.of_error heq
      · next w1 heq =>
        have h1 := h.of_ok heq
        dsimp only
        split
        · exact .refl w.s
        · split
          · exact h1
          · exact (ih _ _).after h1

end Sys2Proof.Proofs
end

section
/-! What a commit leaves of the device registers (O52). -/

set_option Elab.async false

namespace Sys2Proof.Proofs

open Sys2Proof Sys2Proof.Machine Sys2Proof.Laws

/-! ### The order of the device registers over a commit -/

/-- The device registers stay in order. -/
def KeepsOrder (s t : State) : Prop := Rising s.dev → Rising t.dev

namespace KeepsOrder

/-- Nothing has been done. -/
theorem refl (s : State) : KeepsOrder s s := id

/-- One after the other. -/
theorem trans {s t u : State} (h : KeepsOrder s t) (k : KeepsOrder t u) : KeepsOrder s u := k ∘ h

/-- What writes no register. -/
theorem of_same {s t : State} (h : SameDev s t) : KeepsOrder s t := fun hs => by rwa [h.dev]

/-- Where the registers are those of a state in order. -/
theorem of_dev {s t u : State} (h : KeepsOrder s t) (e : u.dev = t.dev) : KeepsOrder s u := fun hs => by
  rw [e]
  exact h hs

/-- One register that is put. -/
theorem put (s : State) (pa : Nat) (v : Word) : KeepsOrder s (devPut s pa v) := rising_spSet _ _ _ _

/-- Over a list. -/
theorem foldl {α : Type} {f : State → α → State} (h : ∀ s x, KeepsOrder s (f s x)) (l : List α) (s : State) :
    KeepsOrder s (l.foldl f s) := by
  induction l generalizing s with
  | nil => exact .refl s
  | cons x l ih => exact (h s x).trans (ih _)

/-- What is acted as a thread. -/
theorem thread {f : State → State} (h : ∀ u, KeepsOrder u (f u)) (s : State) (tid : Nat) : KeepsOrder s (onThread s tid f) :=
  (of_same (.switch s tid)).trans ((h _).trans (of_same (.switch _ _)))

end KeepsOrder

/-- The journal's state is a field of a register. -/
theorem keepsOrder_setJState (s : State) (st : Nat) : KeepsOrder s (setJState s st) := .put s _ _

/-- A record of the journal may end it, and no more. -/
theorem keepsOrder_journal (s : State) (kind slice agent num : Nat) (l : List Word) : KeepsOrder s (journal s kind slice agent num l) := by
  unfold journal
  split
  · exact .refl s
  · dsimp only
    split
    · generalize keyed _ _ = bytes
      have h := sameDev_pokeAll bytes s
      refine .trans ?_ (keepsOrder_setJState _ 2)
      exact .of_dev (.of_same h) rfl
    · generalize keyed _ _ = bytes
      have h := sameDev_pokeAll bytes s
      exact .of_dev (.of_same h) rfl

/-- The records of a chunk that commits. -/
theorem keepsOrder_settleRecs (s : State) (agent : Nat) (c : Chunk) : KeepsOrder s (settleRecs s agent c) := by
  refine .foldl (fun s r => ?_) _ s
  split
  · exact .of_same ⟨rfl, rfl, rfl⟩
  · exact keepsOrder_journal s _ _ _ _ _

/-- The grants of a chunk that commits. -/
theorem keepsOrder_takeGrants (s : State) (agent num : Nat) (own spare : List Nat) (ext : List Word) :
    KeepsOrder s (takeGrants s agent num own spare ext) := by
  unfold takeGrants
  split
  · exact .foldl (fun s sl => keepsOrder_journal s _ sl _ _ _) _ s
  · dsimp only
    split
    · exact .of_same ⟨rfl, rfl, rfl⟩
    · split
      · exact .of_same ⟨rfl, rfl, rfl⟩
      · split
        · exact .of_same ⟨rfl, rfl, rfl⟩
        · have hconsume (u : State) (r : JRec) : SameDev u (consume u r) := ⟨rfl, rfl, rfl⟩
          exact .foldl (fun u r => .of_same (hconsume u r)) _ s

/-- A completion record, or the count of those that found no room. -/
theorem keepsOrder_sendRecord (s : State) (q lo hi : Word) : KeepsOrder s (sendRecord s q lo hi) := by
  unfold sendRecord
  extract_lets i
  split
  · exact .of_same ⟨rfl, rfl, rfl⟩
  · exact .put s _ _

/-- A dependence counter that goes down writes none. -/
theorem sameDev_lowerCounter (s : State) (i : Nat) : SameDev s (lowerCounter s i) := by
  unfold lowerCounter
  extract_lets c
  split
  · exact .refl s
  · exact ⟨rfl, rfl, rfl⟩

/-- Nor does a panel that ends. -/
theorem sameDev_finishPanel (s : State) (p : Panel) : SameDev s (finishPanel s p) := by
  have hdec (u : State) (i : Nat) : SameDev u (if i = 0xFFFF then u else lowerCounter u i) := by
    split
    · exact .refl u
    · exact sameDev_lowerCounter u i
  obtain ⟨hd, hj, hr⟩ := (hdec s (dfld p.desc 74 2)).trans (hdec _ (dfld p.desc 76 2))
  unfold finishPanel
  dsimp only
  split <;> exact ⟨hd, hj, hr⟩

/-- So no panels that have become ready. -/
theorem sameDev_settle (s : State) : SameDev s (settle s) := by
  have honce (u : State) : SameDev u (settleOnce u) := by
    unfold settleOnce
    split
    · exact ⟨rfl, rfl, rfl⟩
    · split
      · exact sameDev_finishPanel u _
      · exact .refl u
  have hfuel (n : Nat) : ∀ u, SameDev u (settleFuel n u) := by
    induction n with
    | zero => exact .refl
    | succ n ih => exact fun u => (honce u).trans (ih _)
  exact hfuel _ s

/-- A panel that is posted. -/
theorem keepsOrder_postPanel (s : State) (tid : Nat) : KeepsOrder s (postPanel s tid) := by
  have hm {u : State} {f : Panel → Panel} : SameDev s u → SameDev s (modPanel u tid f) := fun h => ⟨h.dev, h.jmode, h.resets⟩
  have h1 {n : Nat} {f : Panel → Panel} : SameDev s { modPanel s tid f with nextOrder := n } := ⟨rfl, rfl, rfl⟩
  unfold postPanel
  dsimp only
  split
  · exact .of_same h1
  · split
    · exact .of_same h1
    · split
      · exact (KeepsOrder.of_same (hm h1)).trans (keepsOrder_sendRecord _ _ _ _)
      · exact .of_same (h1.trans (sameDev_settle _))

/-- A packet that leaves writes none. -/
theorem sameDev_sendPacket (s : State) (m : Msg) (da : Word) (i : Instr) : SameDev s (sendPacket s m da i) := by
  unfold sendPacket
  split
  · exact ⟨rfl, rfl, rfl⟩
  · split
    · exact .refl s
    · exact ⟨rfl, rfl, rfl⟩

/-- A message of a chunk, by its kind. -/
theorem keepsOrder_sendMsg (s : State) (m : Msg) : KeepsOrder s (sendMsg s m) := by
  have hwrite (m : Msg) (da : Word) (i : Instr) : SameDev s (sendWrite s m da i) :=
    (sameDev_sendPacket s m da i).trans ⟨rfl, rfl, rfl⟩
  cases m with
  | post p => exact keepsOrder_postPanel s p
  | depset i v =>
    have hput (c : Counter) : SameDev s (putCounter s i c) := ⟨rfl, rfl, rfl⟩
    exact .of_same ((hput _).trans (sameDev_settle _))
  | depdec i => exact .of_same ((sameDev_lowerCounter s i).trans (sameDev_settle _))
  | rst tid da n v => exact .of_same (hwrite _ _ _)
  | rred tid da ty sc mask data => exact .of_same (hwrite _ _ _)
  | request tid da kind n x e => exact .of_same (sameDev_sendPacket s _ _ _)
  | _ => exact .of_same ⟨rfl, rfl, rfl⟩

/-- The commit of an agent's chunk: its records, its broadcast, its bytes, its messages. -/
theorem keepsOrder_commitItems (s : State) (agent : Nat) (c : Chunk) (ext : List Word) : KeepsOrder s (commitItems s agent c ext) := by
  unfold commitItems
  extract_lets own spare foot s0 s1 s2 s3 lines s4 s5
  have h0 : SameDev s s0 := by
    simp only [s0]
    split
    · exact ⟨rfl, rfl, rfl⟩
    · exact .refl s
  have h1 : KeepsOrder s s1 := (KeepsOrder.of_same h0).trans ((keepsOrder_settleRecs s0 agent c).trans (keepsOrder_takeGrants _ agent c.num _ _ ext))
  have h2 : KeepsOrder s s2 := by
    simp only [s2]
    split
    · exact h1
    · exact h1
  have h3 : KeepsOrder s s3 := h2.trans (.of_same (sameDev_broadcast s2 agent c.writeL c.writeG))
  have h4 : KeepsOrder s s4 := h3.trans (.of_same ((sameDev_pokeAll c.writes.reverse s3).trans (sameDev_wakeWaiters _ _)))
  have h5 : KeepsOrder s s5 := by
    refine .trans ?_ (.foldl keepsOrder_sendMsg c.out _)
    exact h4.of_dev rfl
  exact h5.of_dev rfl

/-- A commit with its statistics and its trace. -/
theorem keepsOrder_commitTraced (s : State) (lvl : Level) (pass : Bool) (pc agent : Nat) (c : Chunk) (x y : Word) (ext : List Word) :
    KeepsOrder s (commitItems (traceCommit lvl (bumpStat s 0 1) pass pc c x y) agent c ext) :=
  KeepsOrder.trans (.of_same ((sameDev_bumpStat s 0 1).trans ((sameDev_traceAt _ _ _ _ _ _ _).trans (sameDev_traceAt _ _ _ _ _ _ _))))
    (keepsOrder_commitItems _ agent c ext)

/-- The sealed chunk of a pass. -/
theorem keepsOrder_commitSealed (s : State) : KeepsOrder s (commitSealed s) := by
  unfold commitSealed
  split
  · exact .refl s
  · split
    · exact .refl s
    · extract_lets n s1 w
      have h1 : SameDev s s1 := ⟨rfl, rfl, rfl⟩
      exact (KeepsOrder.of_same h1).trans (keepsOrder_commitTraced s1 _ _ _ _ _ _ _ _)

/-- The open chunk of a pass. -/
theorem keepsOrder_commitPass (s : State) (pc : Nat) (v : Vector Nat 4) : KeepsOrder s (commitPass s pc v) := by
  unfold commitPass
  split
  · exact .refl s
  · extract_lets s1 w
    have h1 : SameDev s s1 := ⟨rfl, rfl, rfl⟩
    exact (KeepsOrder.of_same h1).trans (keepsOrder_commitTraced s1 _ _ _ _ _ _ _ _)

/-- A held pass that ends. -/
theorem keepsOrder_closePass (s : State) (p : Pass) : KeepsOrder s (closePass s p) := by
  have h : SameDev s (runHeld s p) := ⟨rfl, rfl, rfl⟩
  exact (KeepsOrder.of_same h).trans (keepsOrder_commitPass _ _ _)

/-- The closed scalar chunk, the sealed one before it. -/
theorem keepsOrder_commitClosed (s : State) : KeepsOrder s (commitClosed s) := by
  unfold commitClosed
  split
  · exact .refl s
  · extract_lets s0 s1
    have h0 : KeepsOrder s s0 := by
      simp only [s0]
      split
      · exact keepsOrder_commitSealed s
      · exact .refl s
    have h1 : SameDev s0 s1 := ⟨rfl, rfl, rfl⟩
    exact (h0.trans (.of_same h1)).trans (keepsOrder_commitTraced s1 _ _ _ _ _ _ _ _)

/-- The open scalar chunk, which is closed first. -/
theorem keepsOrder_commitOpen (s : State) : KeepsOrder s (commitOpen s) := by
  have hclose : KeepsOrder s (closeOpen s) := by
    unfold closeOpen
    extract_lets s1 a
    have h1 : KeepsOrder s s1 := keepsOrder_commitClosed s
    split
    · exact h1
    · exact h1.of_dev rfl
  exact hclose.trans (keepsOrder_commitClosed _)

/-- The time of groups done again is counted, and writes none. -/
theorem sameDev_chargeAgain (s : State) (p q : Pass) : SameDev s (chargeAgain s p q) := by
  have hadd (u : State) (c k : Nat) (n : Word) : SameDev u (addLane u c k n) := ⟨rfl, rfl, rfl⟩
  unfold chargeAgain
  extract_lets len lane
  exact .foldl (fun u c => (hadd u c 0 _).trans ((hadd _ c 1 _).trans ((hadd _ c 4 _).trans (hadd _ c 2 _)))) _ s

/-- Nor does a sealed chunk that is done again. -/
theorem sameDev_rerun (s : State) (r : Redo) : SameDev s (rerun s r) := by
  unfold rerun
  extract_lets a s0 g back mine bar
  have h0 : SameDev s s0 := ⟨rfl, rfl, rfl⟩
  have h := KeepsDev.after h0 (keepsDev_workAgain (Nat.max 1 (clustersHeld s)) r.a.cmpthr.toNat g bar (passFull s)
    (groupsBetween r.p.next r.stop r.p.len) r.p (Work.start s0 (Chunk.empty r.p.fpc r.p.chunks) r.p.st g.nodes (some r.kept)))
  have hback (x : State) : SameDev x (back x) := ⟨rfl, rfl, rfl⟩
  have hmod (x : State) (f : Thread → Thread) : SameDev x (modT x f) := ⟨rfl, rfl, rfl⟩
  have hfree (x : State) : SameDev x (freeRedo x) := ⟨rfl, rfl, rfl⟩
  clear_value back
  split
  · next heq => exact (h.of_error heq).trans ((hback _).trans ((hfree _).trans (hmod _ _)))
  · next heq =>
    have hw := (h.of_ok heq).trans (hback _)
    split
    · exact hw.trans ((hfree _).trans (hmod _ _))
    · exact hw.trans ((sameDev_chargeAgain _ _ _).trans (hmod _ _))

/-- Nor does its reservation. -/
theorem sameDev_reserveRedo (s : State) (r : Redo) : SameDev s (reserveRedo s r) := by
  unfold reserveRedo
  split
  · exact .refl s
  · split
    · exact ⟨rfl, rfl, rfl⟩
    · exact ⟨rfl, rfl, rfl⟩

/-- A sealed chunk, done again until it commits. -/
theorem keepsOrder_settleSealed (s : State) : KeepsOrder s (settleSealed s) := by
  have hstep (u : State) : KeepsOrder u (settleStep u) := by
    unfold settleStep
    split
    · exact .refl u
    · next r _ =>
      refine .trans ?_ (keepsOrder_commitSealed _)
      split
      · exact .refl u
      · exact .of_same ((sameDev_reserveRedo u r).trans (sameDev_rerun _ r))
  have hfuel (n : Nat) : ∀ u, KeepsOrder u (settlePassFuel n u) := by
    induction n with
    | zero => exact .refl
    | succ n ih =>
      intro u
      unfold settlePassFuel
      split
      · exact .refl u
      · exact (hstep u).trans (ih _)
  unfold settleSealed
  split
  · exact .refl s
  · exact hfuel _ s

/-- The chunk of a copy engine. -/
theorem keepsOrder_commitEngine (s : State) (o : EngineOp) (c : Chunk) : KeepsOrder s (commitEngine s o c) := by
  unfold commitEngine
  extract_lets old pos s1
  have h1 : SameDev s s1 := ⟨rfl, rfl, rfl⟩
  exact (KeepsOrder.of_same h1).trans (keepsOrder_commitItems s1 _ c _)

/-- The chunks of one thread's agents. -/
theorem keepsOrder_settleAgents (s : State) (hit : Chunk → Bool) : KeepsOrder s (settleAgents s hit) := by
  unfold settleAgents
  extract_lets s1 s2
  have h1 : KeepsOrder s s1 := by
    simp only [s1]
    split
    · exact keepsOrder_settleSealed s
    · exact .refl s
  clear_value s1
  have h2 : KeepsOrder s s2 := by
    simp only [s2]
    split
    · split
      · exact h1.trans (keepsOrder_closePass s1 _)
      · exact h1
    · exact h1
  clear_value s2
  refine h2.trans (.foldl (fun u e => ?_) _ s2)
  split
  · exact .refl u
  · split
    · exact keepsOrder_commitEngine u e _
    · exact .refl u

/-- What SRAMSIZE waits for leaves the device registers in order. -/
theorem keepsOrder_settleThread (hit : Chunk → Bool) (s : State) (tid : Nat) : KeepsOrder s (settleThread hit s tid) := by
  refine .thread (fun u => ?_) s tid
  split
  · exact .refl u
  · unfold unlessFrozen
    split
    · exact .of_same ⟨rfl, rfl, rfl⟩
    · refine .trans ?_ (keepsOrder_settleAgents _ hit)
      split
      · exact keepsOrder_commitOpen u
      · split
        · exact keepsOrder_commitClosed u
        · exact .refl u

end Sys2Proof.Proofs
end

section
/-! Doorbells, requests for pre-emption, and what comes to a core (O52). -/

set_option Elab.async false

namespace Sys2Proof.Proofs

open Sys2Proof Sys2Proof.Machine Sys2Proof.Laws

/-! ### Doorbells (R380) -/

/-- Nothing is recorded without a journal. -/
theorem journal_quiet (s : State) (kind slice agent num : Nat) (l : List Word) (h : quiet s) : journal s kind slice agent num l = s := by
  unfold quiet at h
  simp [journal, h]

/-- Without a journal and with no reservation held, what arrives at a port is performed at once. -/
theorem arrival_live {s : State} (slices : List Nat) (port ch : Nat) (pkt : List Word) (f : State → State) (hq : quiet s)
    (hh : s.held = []) : arrival s slices port ch pkt f = performNext s port f := by
  have hfree : slices.foldl freeSlice s = s := by
    induction slices with
    | nil => rfl
    | cons sl l ih =>
      have h1 : freeSlice s sl = s := by simp [freeSlice, hh]
      rw [List.foldl_cons, h1, ih]
  have hrec : slices.foldl (fun s sl => journal s 4 sl (portAgent port) (portNum s port) (wd (port + ch * 2 ^ 32) :: pkt)) s = s := by
    clear hfree
    induction slices with
    | nil => rfl
    | cons sl l ih => rw [List.foldl_cons, journal_quiet s _ _ _ _ _ hq, ih]
  unfold arrival
  rw [if_neg (by rw [replaying_quiet s hq]; decide), hfree]
  exact congrArg (performNext · port f) hrec

/-- The status of a doorbell of a VF's page. -/
def rung (s : State) (vf st : Nat) : State := devPut s (paVf vf 0x18) (wd st)

/-- The item of a doorbell goes to its queue. -/
def pushed (s : State) (vf q i : Nat) (v : Word) : State := pushItem s q { lo := devGet s (paVf vf 0), hi := v, place := some i }

section
variable {s : State} {vf q : Nat}

/-- A queue of another module. -/
theorem doorbell_foreign (v : Word) (hq : q = fld (devGet s (paVf vf 0x10)) 0 21) (h : 1024 ≤ q) : doorbell s vf v = rung s vf 2 := by
  subst hq
  exact if_pos (by unfold moduleNo; omega)

/-- What becomes of an item for a queue of this module, by the host's reservation for it. -/
def entered (s : State) (vf q : Nat) (v : Word) : Option Nat → State
  | none => rung s vf 2
  | some i =>
    if qKind s q = 0 then rung s vf 3 else if senderPlaces s i ≤ inUse s i then rung s vf 1 else rung (pushed s vf q i v) vf 0

/-- A queue of this one is looked for among the host's reservations. -/
theorem doorbell_local (v : Word) (hq : q = fld (devGet s (paVf vf 0x10)) 0 21) (h : q < 1024) :
    doorbell s vf v = entered s vf q v (senderEntry s q 0 vf true) := by
  have hmod : fld (devGet s (paVf vf 0x10)) 0 21 % 1024 = q := by rw [← hq]; exact Nat.mod_eq_of_lt h
  have hdiv : ¬ fld (devGet s (paVf vf 0x10)) 0 21 / 1024 ≠ moduleNo := by
    rw [← hq]
    unfold moduleNo
    omega
  have hentry : senderEntry s q moduleNo vf true = senderEntry s q 0 vf true := rfl
  unfold doorbell
  dsimp only
  rw [if_neg hdiv, hmod, hentry]
  cases senderEntry s q 0 vf true with
  | none => rfl
  | some i => rfl

end

/-- What a doorbell leaves, but for the count of its port's arrivals. -/
theorem answers_dbhi {s : State} {vf : Nat} {v : Word} {P : State → Prop} (t : State) (hq : quiet s) (hh : s.held = [])
    (ht : doorbell s vf v = t) (hp : P { t with ports := spPut t.ports hostPort (portNum s hostPort + 1) }) : Answers (.dbhi vf v) s P := by
  refine ⟨_, congrArg Host.Outcome.next (arrival_live _ _ _ _ _ hq hh), ?_⟩
  unfold performNext
  have he : hostDoorbell vf none v s = t := ht
  rw [he]
  exact hp

/-- The status that a doorbell has left. -/
theorem devGet_rung {s t : State} (vf st : Nat) (hs : Rising s.dev) (ht : t.dev = (rung s vf st).dev) :
    devGet t (paVf vf 0x18) = wd st := (devGet_congr ht _).trans (devGet_devPut_same s _ _ hs)

/-! ### One field of a word -/

/-- A word with one field replaced. -/
theorem div_replaceField (w b m n : Nat) (hb : 0 < b) : (w - w / b % m * b + n * b) / b = m * (w / b / m) + n := by
  have hw : w % b + b * (w / b) = w := Nat.mod_add_div w b
  have hq : w / b % m + m * (w / b / m) = w / b := Nat.mod_add_div (w / b) m
  have hsub : w - w / b % m * b = w % b + b * (m * (w / b / m)) := by
    have hbq : b * (w / b) = b * (w / b % m) + b * (m * (w / b / m)) := by rw [← Nat.mul_add, hq]
    have hcomm : w / b % m * b = b * (w / b % m) := Nat.mul_comm _ _
    omega
  calc (w - w / b % m * b + n * b) / b = (w % b + b * (m * (w / b / m) + n)) / b := by
        rw [hsub, Nat.mul_comm n b, Nat.mul_add, Nat.add_assoc]
    _ = m * (w / b / m) + n := by rw [Nat.add_mul_div_left _ _ hb, Nat.div_eq_of_lt (Nat.mod_lt _ hb), Nat.zero_add]

/-- A field of a number in a word. -/
theorem fld_wd (n i w : Nat) (h : i + w ≤ 64) : fld (wd n) i w = n / 2 ^ i % 2 ^ w := by
  have h64 : 2 ^ 64 = 2 ^ i * 2 ^ (64 - i) := by rw [← Nat.pow_add]; congr 1; omega
  have hdvd : 2 ^ w ∣ 2 ^ (64 - i) := Nat.pow_dvd_pow 2 (by omega)
  unfold fld wd
  rw [BitVec.toNat_ofNat, h64, Nat.mod_mul_right_div_self, Nat.mod_mod_of_dvd _ hdvd]

/-! ### Requests for pre-emption (R389) -/

/-- A steward reads whether its latest request was refused. -/
theorem fld_noteRequest (s : State) (pa st : Nat) (refused : Bool) (hs : Rising s.dev) (hlo : 320 ≤ st) (hhi : st < 336) :
    fld (devGet (noteRequest s pa st refused) pa) (st - 320) 1 = b2n refused := by
  unfold noteRequest
  rw [if_neg (by omega)]
  dsimp only
  rw [devGet_devPut_same s _ _ hs, fld_wd _ _ _ (by omega), div_replaceField _ _ _ _ (Nat.two_pow_pos _)]
  cases refused
  · simp [b2n]
  · simp [b2n, Nat.add_mod]

/-- The outcome of a request changes that register alone. -/
theorem noteRequest_rest (s : State) (pa st : Nat) (refused : Bool) : { noteRequest s pa st refused with dev := s.dev } = s := by
  unfold noteRequest
  split
  · rfl
  · exact devPut_rest s _ _

/-- So no thread. -/
theorem threadAt_noteRequest (s : State) (pa st : Nat) (refused : Bool) (i : Nat) :
    threadAt (noteRequest s pa st refused) i = threadAt s i := by
  have hput (v : Word) : threadAt (devPut s pa v) i = threadAt s i := rfl
  unfold noteRequest
  split
  · rfl
  · exact hput _

/-- A thread that has been replaced. -/
theorem threadAt_putThread (s : State) (tid : Nat) (t : Thread) : threadAt (putThread s tid t) tid = t := by
  unfold putThread
  split
  · next h => exact if_pos h
  · next h => exact (if_neg h).trans ((spGet_spPut _ _ _ _ _).trans (if_pos rfl))

/-- A core that has been replaced. -/
theorem coreAt_putCore (s : State) (i : Nat) (c : Core) : coreAt (putCore s i c) i = c := by
  unfold putCore
  split
  · next h => exact if_pos h
  · next h => exact (if_neg h).trans ((spGet_spPut _ _ _ _ _).trans (if_pos rfl))

/-! ### What comes to a core (R99, R133, R134) -/

/-- A SAMPLE record writes no register. -/
theorem sameDev_sampled (s : State) (n : Nat) : SameDev s (sampled s n) := by
  have hsample (u : State) (e : Nat × Nat) : SameDev u (onThread u e.2 fun x => sampleAt x e.1) := by
    refine .thread (fun x => ?_) u e.2
    unfold sampleAt sample
    dsimp only
    have h := sameDev_traceAt x.t.lvl { x with c := { x.c with cyc := wd e.1 } } 8 false x.t.a.pc
      (vecWords (groupPointers { x with c := { x.c with cyc := wd e.1 } })).1
      (vecWords (groupPointers { x with c := { x.c with cyc := wd e.1 } })).2
    exact ⟨h.dev, h.jmode, h.resets⟩
  unfold sampled
  extract_lets x y total l at_ c s1
  clear_value total
  split
  · exact .refl s
  · have h1 : SameDev s s1 := ⟨rfl, rfl, rfl⟩
    exact h1.trans (.foldl hsample _ s1)

/-- Nor do cycles that pass. -/
theorem sameDev_cyclesPass (s : State) (n : Nat) : SameDev s (cyclesPass s n) := by
  unfold cyclesPass
  split
  · exact .refl s
  · extract_lets rest gate m o s0 s1 s2 c
    split
    · exact .refl s
    · have h1 : SameDev s s1 := (sameDev_sampled s m).trans ⟨rfl, rfl, rfl⟩
      have h2 : SameDev s s2 := by
        simp only [s2]
        split
        · exact h1.trans (.record s1 _ _)
        · exact h1
      exact ⟨h2.dev, h2.jmode, h2.resets⟩

/-- Nor does a clock that takes up its die's time. -/
theorem sameDev_wakeClock (s : State) (core : Nat) : SameDev s (wakeClock s core) := by
  have hcatch (u : State) : SameDev u (catchUp u) := by
    unfold catchUp
    split
    · exact .refl u
    · have h := sameDev_cyclesPass u (ceilDiv (dieTime u (dieOf (coreOf u.cur)) - u.c.clock) (incOf u.c.fcur) + Config.extraCycles u.free)
      exact ⟨h.dev, h.jmode, h.resets⟩
  unfold wakeClock
  split
  · exact (SameDev.thread hcatch s _).trans (.core _ _ _)
  · exact .refl s

/-- Nor does a frequency step, without a journal. -/
theorem sameDev_startStep (s : State) (core mhz limit : Nat) (hq : quiet s) : SameDev s (startStep s core mhz limit) := by
  have hrec (v : Word) : SameDev s (onThread s (2 * core) fun s => journalEvent s 5 v) := by
    have hsw := SameDev.switch s (2 * core)
    have hj : journalEvent (switchTo s (2 * core)) 5 v = switchTo s (2 * core) := journal_quiet _ _ _ _ _ _ (hsw.jmode.trans hq)
    exact hsw.trans ((congrArg (SameDev (switchTo s (2 * core))) (congrArg (switchTo · s.cur) hj)).mpr (.switch _ _))
  unfold startStep
  extract_lets top f c s1 why c1
  split
  · exact .core s _ _
  · exact (hrec (wd f)).trans (.core s1 _ _)

/-- Nor does the end of power gating. -/
theorem sameDev_ungate (s : State) (core : Nat) (hq : quiet s) : SameDev s (ungate s core) := by
  unfold ungate
  extract_lets c s1
  have h1 : SameDev s s1 := .core s _ _
  split
  · exact .refl s
  · split
    · exact h1
    · exact h1.trans (sameDev_startStep s1 _ _ _ (h1.jmode.trans hq))

/-- Nor does a step of the governor, at once or later. -/
theorem sameDev_governorStep (s : State) (core mhz limit : Nat) (hq : quiet s) : SameDev s (governorStep s core mhz limit) := by
  have hheld (u : State) (hu : quiet u) : SameDev u (heldStep u core) := by
    unfold heldStep
    split
    · exact .refl u
    · split
      · exact .refl u
      · exact sameDev_startStep u _ _ _ hu
  unfold governorStep
  split
  · exact .refl s
  · unfold beginStep
    extract_lets u
    have hsu : SameDev s u := by
      simp only [u]
      split
      · exact sameDev_wakeClock s core
      · exact .refl s
    have hu : quiet u := hsu.jmode.trans hq
    clear_value u
    split
    · exact hsu
    · split
      · exact hsu.trans (hheld u hu)
      · split
        · exact hsu.trans (.core u _ _)
        · exact hsu.trans (sameDev_startStep u _ _ _ hu)

/-! ### A request that is made -/

/-- A request of a thread that runs is left pending, and writes no register. -/
theorem requestPreemption_pending {s : State} {tid vf : Nat} {byH : Bool} (hq : quiet s) (ht : tid < 336)
    (hr : (threadAt s tid).run ≠ .halted) (hv : byH = true ∨ (threadAt s tid).vfid = vf) :
    ∃ u, requestPreemption s tid byH vf = (u, true) ∧ u.dev = s.dev ∧
      (if byH then (threadAt u tid).preH else (threadAt u tid).preS) = true := by
  have hn : ¬ (336 ≤ tid ∨ (threadAt s tid).run = .halted ∨ (byH = false ∧ (threadAt s tid).vfid ≠ vf)) := by
    rintro (h | h | ⟨h1, h2⟩)
    · omega
    · exact hr h
    · rcases hv with e | e
      · exact absurd (h1.symm.trans e) (by decide)
      · exact h2 e
  have hw := sameDev_wakeClock s (coreOf tid)
  have hu := hw.trans (sameDev_ungate _ (coreOf tid) (hw.jmode.trans hq))
  refine ⟨_, if_neg hn, (SameDev.record _ _ _).dev.trans hu.dev, ?_⟩
  rw [threadAt_putThread]
  cases byH <;> rfl

/-- One of a thread that is HALTED, or of another VF's for a request on behalf of S, is refused. -/
theorem requestPreemption_refused {s : State} {tid vf : Nat} {byH : Bool}
    (h : (threadAt s tid).run = .halted ∨ (byH = false ∧ (threadAt s tid).vfid ≠ vf)) : requestPreemption s tid byH vf = (s, false) :=
  if_pos (.inr h)

end Sys2Proof.Proofs
end

section
/-! Window sizes, frequency limits, owners, plain registers and the reset of a virtual function (O52). -/

set_option Elab.async false

namespace Sys2Proof.Proofs

open Sys2Proof Sys2Proof.Machine Sys2Proof.Laws

/-! ### SRAMSIZE (R249) -/

/-- A byte in a scrubbed range is zero. -/
theorem rawByte_scrub (s : State) (k n j : Nat) (hlo : k ≤ j) (hhi : j < k + n) : rawByte (scrub s k n) j = 0 := by
  refine spGet_absent _ _ _ fun e he hj => ?_
  obtain ⟨-, hout⟩ := List.mem_filter.mp he
  simp [hj, hlo, hhi] at hout

/-- What a write of SRAMSIZE leaves: the size, and zeros in what leaves or joins the window. -/
theorem writeSramsize_leaves (s : State) (die : Nat) (v : Word) (hs : Rising s.dev) (hd : die < 4) (hv : fld v 0 5 ≤ 16) :
    devGet (writeSramsize s die v) (0x40000000038 + 8 * die) = BitVec.ofNat 64 (fld v 0 5) ∧
    ∀ o, min (fld (devGet s (0x40000000038 + 8 * die)) 0 5) (fld v 0 5) * 1048576 ≤ o →
      o < max (fld (devGet s (0x40000000038 + 8 * die)) 0 5) (fld v 0 5) * 1048576 →
      rawByte (writeSramsize s die v) (sramKey die o) = 0 := by
  have hpa : paModule (0x38 + 8 * die) = 0x40000000038 + 8 * die := by unfold paModule; omega
  unfold writeSramsize
  rw [if_neg (by omega), hpa]
  extract_lets lo s1
  have h1 : Rising s1.dev := KeepsOrder.foldl (keepsOrder_settleThread _) (liveTids s) s hs
  have hmin : lo = min (fld (devGet s (0x40000000038 + 8 * die)) 0 5) (fld v 0 5) := rfl
  have hmax : Nat.max (fld (devGet s (0x40000000038 + 8 * die)) 0 5) (fld v 0 5) =
    max (fld (devGet s (0x40000000038 + 8 * die)) 0 5) (fld v 0 5) := rfl
  clear_value s1 lo
  refine ⟨devGet_devPut_same s1 _ _ h1, fun o hlo hhi => rawByte_scrub _ _ _ _ ?_ ?_⟩
  · unfold sramKey
    omega
  · unfold sramKey
    omega

/-! ### FLIM (R429) -/

/-- A core whose limit has been lowered. -/
theorem writeFlim_eq (s : State) (core : Nat) (v : Word) (hc : core < 160) :
    writeFlim s core v =
      (let n := min 1800 (max 1000 (fld v 0 12)) / 25 * 25
       let s1 := devPut s (0x40000001200 + 8 * core) (wd n)
       if n < targetOf s core then governorStep s1 core n 6 else s1) := by
  have hpa : paModule (0x1200 + 8 * core) = 0x40000001200 + 8 * core := by unfold paModule; omega
  unfold writeFlim
  dsimp only
  rw [if_neg (by omega), hpa]
  rfl

/-- A step down, of a core whose clock runs, to a frequency that CAP allows and FLIM now asks for, begins at once. -/
theorem relock_governorStep (s : State) (core n : Nat) (hq : quiet s) (hc : core < 160) (hlo : 1000 ≤ n) (hn : n % 25 = 0)
    (hflim : flimOf s core = n) (hf : n < (coreAt s core).fcur) (hcap : n ≤ (coreAt s core).cap) (hw : stepWaits s core = false)
    (hrest : (coreAt s core).waits = false) (hheld : (coreAt s core).stepHeld = none) :
    ∃ t0, (coreAt (governorStep s core n 6) core).relock = some (n, t0) := by
  have hrelock : (coreAt s core).relock = none := by
    cases h : (coreAt s core).relock with
    | none => rfl
    | some r => simp [stepWaits, h] at hw
  have htarget : targetOf s core = (coreAt s core).fcur := by
    unfold targetOf
    simp only [hheld, hrelock]
  have htop : ceilingOf s core = n := by
    show max 1000 (min (coreAt s core).cap (flimOf s core)) = n
    omega
  have hstep : governorStep s core n 6 = startStep s core n 6 := by
    unfold governorStep
    rw [if_neg (by rw [replaying_quiet s hq]; decide)]
    unfold beginStep
    dsimp only
    rw [if_pos hc, wakeClock_busy s core hrest, if_neg (by omega), if_neg (by omega), if_neg (by rw [hw]; decide)]
  have hmin : Nat.min n n = n := Nat.min_self n
  rw [hstep]
  unfold startStep
  dsimp only
  rw [htop, hmin, if_neg (by omega), coreAt_putCore]
  exact ⟨_, rfl⟩

/-! ### The owner table (R381) -/

/-- The owner byte after its write. -/
theorem ownerByte_written (s : State) (off : Nat) (v : Byte) (hs : Rising s.dev) :
    (devGet (devPut s (0x40000C20000 + off / 8 * 8) (wd ((devGet s (0x40000C20000 + off / 8 * 8)).toNat -
      (devGet s (0x40000C20000 + off / 8 * 8)).toNat / 2 ^ (8 * (off % 8)) % 256 * 2 ^ (8 * (off % 8)) +
      v.toNat % 128 * 2 ^ (8 * (off % 8))))) (0x40000C20000 + off / 8 * 8)).toNat / 2 ^ (8 * (off % 8)) % 128 = v.toNat % 128 := by
  rw [devGet_devPut_same s _ _ hs]
  generalize (devGet s (0x40000C20000 + off / 8 * 8)).toNat = w
  refine (fld_wd _ (8 * (off % 8)) 7 (by omega)).trans ?_
  rw [div_replaceField _ _ _ _ (Nat.two_pow_pos _)]
  omega

/-- A range of a sparse list that has been dropped. -/
theorem not_mem_dropRange {α : Type} {l : List (Nat × α)} {lo n : Nat} : ∀ e ∈ dropRange l lo n, ¬ (lo ≤ e.1 ∧ e.1 < lo + n) := by
  intro e he h
  obtain ⟨-, hout⟩ := List.mem_filter.mp he
  simp [h.1, h.2] at hout

/-- What a change of owner leaves. -/
theorem writeOwner_leaves (s : State) (off : Nat) (v : Byte) (hs : Rising s.dev) (ho : off < 0x300) (hv : ownerByte s off ≠ v.toNat % 128) :
    ownerByte (writeOwner s off v) off = v.toNat % 128 ∧
    (off < 0x100 → ∀ e ∈ (writeOwner s off v).counters, ¬(64 * off ≤ e.1 ∧ e.1 < 64 * off + 64)) ∧
    (0x100 ≤ off → off < 0x200 → ∀ e ∈ (writeOwner s off v).slots, ¬(16 * (off - 0x100) ≤ e.1 ∧ e.1 < 16 * (off - 0x100) + 16)) ∧
    (0x200 ≤ off → ∀ e ∈ (writeOwner s off v).groups, ¬(16 * (off - 0x200) ≤ e.1 ∧ e.1 < 16 * (off - 0x200) + 16)) := by
  have hb := ownerByte_written s off v hs
  unfold writeOwner
  rw [if_neg (not_or.mpr ⟨by omega, hv⟩)]
  extract_lets new pa b
  split
  · exact ⟨hb, fun _ => not_mem_dropRange, fun _ _ => by omega, fun _ => by omega⟩
  · split
    · exact ⟨hb, fun _ => by omega, fun _ _ => not_mem_dropRange, fun _ => by omega⟩
    · exact ⟨hb, fun _ => by omega, fun _ _ => by omega, fun _ => not_mem_dropRange⟩

/-! ### Registers with no behaviour of their own (R4) -/

/-- A write that no event of its own stands for. -/
theorem exec_registerWrite_plain (s : State) (pa : Nat) (v : Word) (hd : isDevice pa = true) (he : devEvent s.cur pa v = .registerWrite pa v) :
    exec (.registerWrite pa v) s = .next (writePlainReg s pa v) := by
  refine congrArg Host.Outcome.next ?_
  rw [if_neg (by rw [hd]; decide), he]

/-- The plain registers of the statement: PLIM, the limits and VMIN, the journal's beside JCTL, and the tables of the fabric. -/
def plainRange (pa : Nat) : Prop := (0x40000001000 ≤ pa ∧ pa < 0x40000001200) ∨ (0x40000A00008 ≤ pa ∧ pa < 0x40000A01000) ∨
  (0x40000C40000 ≤ pa ∧ pa < 0x40000C62400)

/-- They are device registers. -/
theorem isDevice_plainRange {pa : Nat} (h : plainRange pa) : isDevice pa = true := by
  unfold plainRange at h
  simp only [isDevice, Bool.and_eq_true, decide_eq_true_eq]
  omega

/-- None of them has an event of its own, -/
theorem devEvent_plainRange {pa : Nat} (cur : Nat) (v : Word) (h : plainRange pa ∨ pa = 0x40000A00000) :
    devEvent cur pa v = .registerWrite pa v := by
  unfold plainRange at h
  unfold devEvent
  dsimp only
  rw [if_neg (by omega), if_neg (by omega), if_neg (by omega), if_neg (by omega), if_neg (by omega), if_neg (by omega),
    if_neg (by omega)]

/-- nor a write that is treated apart. -/
theorem writePlainReg_plainRange {pa : Nat} (s : State) (v : Word) (h : plainRange pa) : writePlainReg s pa v = devPlain s pa v := by
  unfold plainRange at h
  unfold writePlainReg
  dsimp only
  rw [if_neg (by omega), if_neg (by omega), if_neg (by omega), if_neg (by omega), if_neg (by omega)]

/-- A plain write takes the writable bits of its register, and changes nothing else. -/
theorem devPlain_leaves (s : State) (pa r m : Nat) (v : Word) (hs : Rising s.dev) (hr : devReg pa = some (r, m)) :
    devGet (devPlain s pa v) pa = (devGet s pa &&& ~~~(BitVec.ofNat 64 m)) ||| (v &&& BitVec.ofNat 64 m) ∧
    (∀ p, p ≠ pa → devGet (devPlain s pa v) p = devGet s p) ∧ { devPlain s pa v with dev := s.dev } = s := by
  unfold devPlain
  simp only [hr]
  exact ⟨devGet_devPut_same s _ _ hs, fun p hp => devGet_devPut_other s _ p _ hs hp, devPut_rest s _ _⟩

/-! ### The reset of a virtual function: its threads (R375) -/

/-- Every thread is as it was when the turn goes to another. -/
theorem threadAt_switchTo (s : State) (tid i : Nat) (hs : Rising s.threads) : threadAt (switchTo s tid) i = threadAt s i := by
  by_cases hi : i = tid
  · subst hi
    unfold threadAt
    rw [switchTo_cur, if_pos rfl, switchTo_t]
    rfl
  · by_cases hc : tid = s.cur
    · subst hc
      rw [switchTo_self]
    · have hth : (switchTo s tid).threads = spDel (spPut s.threads s.cur s.t) tid := by
        unfold switchTo
        rw [if_neg hc]
        split <;> rfl
      unfold threadAt
      rw [switchTo_cur, if_neg hi, hth, spGet_spDel _ _ _ _ (rising_spPut _ _ _ hs), if_neg hi, spGet_spPut]

/-- The other threads' records stay in order. -/
theorem rising_switchTo (s : State) (tid : Nat) (hs : Rising s.threads) : Rising (switchTo s tid).threads := by
  unfold switchTo
  split
  · exact hs
  · split
    · exact rising_spDel _ _ (rising_spPut _ _ _ hs)
    · exact rising_spDel _ _ (rising_spPut _ _ _ hs)

/-- What a thread of a VF that is reset does in its turn. -/
def resetOwn (s : State) : State :=
  let s1 := squashPass (dropSealed (squash s true false) false) false
  haltThread { modT s1 fun t => { t with sealed := none, redo := none, passCkpt := none, pass := none, passEffort := Effort.zero } with
    engines := s1.engines.filter fun e => e.tid != s.cur,
    held := s1.held.filter fun h => h.2 != passAgent s.cur && !(s1.engines.any fun e => e.tid == s.cur && engineAgent e.tid e.k == h.2) }

/-- The reset of a thread is that, in the thread's turn. -/
theorem resetThread_eq (s : State) (tid : Nat) : resetThread s tid = onThread s tid resetOwn := rfl

/-- The same thread has the turn, the others' records are as they were, and the same resets wait. -/
structure ActsAlone (s t : State) : Prop where
  cur : t.cur = s.cur
  others : t.threads = s.threads
  resets : t.resets = s.resets

namespace ActsAlone

/-- Nothing has been done. -/
theorem refl (s : State) : ActsAlone s s := ⟨rfl, rfl, rfl⟩

/-- One after the other. -/
theorem trans {s t u : State} (h : ActsAlone s t) (k : ActsAlone t u) : ActsAlone s u :=
  ⟨k.cur.trans h.cur, k.others.trans h.others, k.resets.trans h.resets⟩

/-- Over a list. -/
theorem foldl {α : Type} {f : State → α → State} (h : ∀ s x, ActsAlone s (f s x)) (l : List α) (s : State) :
    ActsAlone s (l.foldl f s) := by
  induction l generalizing s with
  | nil => exact .refl s
  | cons x l ih => exact (h s x).trans (ih _)

/-- What drops chunks of its own alone, and writes no register. -/
theorem of_drops {s t : State} (h : DropsAlone s t) (k : SameDev s t) : ActsAlone s t := ⟨h.cur, h.others, k.resets⟩

end ActsAlone

/-- A group's table stands apart. -/
theorem actsAlone_leaveGroup (s : State) (g tid : Nat) : ActsAlone s (leaveGroup s g tid).1 := by
  unfold leaveGroup
  split
  · exact .refl s
  · dsimp only
    split
    · exact ⟨rfl, rfl, rfl⟩
    · exact ⟨rfl, rfl, rfl⟩

/-- So do the queues. -/
theorem actsAlone_sendRecord (s : State) (q lo hi : Word) : ActsAlone s (sendRecord s q lo hi) := by
  unfold sendRecord
  dsimp only
  split <;> exact ⟨rfl, rfl, rfl⟩

/-- So do the dependence counters. -/
theorem actsAlone_poisonCounter (s : State) (i : Nat) : ActsAlone s (poisonCounter s i) := by
  unfold poisonCounter
  split
  · exact .refl s
  · exact ⟨rfl, rfl, rfl⟩

/-- So do the panels that were granted. -/
theorem actsAlone_abandonGrant (s : State) (tid : Nat) (g : Grant) : ActsAlone s (abandonGrant s tid g) := by
  unfold abandonGrant
  split
  · exact .refl s
  · extract_lets s1 c0 c1
    have h1 : ActsAlone s s1 := ⟨rfl, rfl, rfl⟩
    exact h1.trans ((actsAlone_poisonCounter s1 c0).trans ((actsAlone_poisonCounter _ c1).trans (actsAlone_sendRecord _ _ _ _)))

/-- A thread with no engine operation outstanding that halts. -/
theorem haltThread_alone (s : State) (h : outstanding s = []) : ActsAlone s (haltThread s) ∧ (haltThread s).t.run = .halted := by
  have hdrain : drainEngines s = s := by
    unfold drainEngines
    rw [h]
    rfl
  unfold haltThread
  rw [hdrain]
  extract_lets s1 s2 s3 me c s4
  have h2 : ActsAlone s s2 := .foldl (fun u g => actsAlone_leaveGroup u g u.cur) _ s1
  have h3 : ActsAlone s s3 := h2.trans (.foldl (fun u g => actsAlone_abandonGrant u u.cur g) _ s2)
  have h4 : ActsAlone s s4 := by
    simp only [s4]
    split
    · exact h3
    · exact ⟨h3.cur, h3.others, h3.resets⟩
  exact ⟨⟨h4.cur, h4.others, h4.resets⟩, rfl⟩

/-- A thread that is reset halts, and acts on no other. -/
theorem resetOwn_alone (s : State) : ActsAlone s (resetOwn s) ∧ (resetOwn s).t.run = .halted := by
  unfold resetOwn
  extract_lets s1
  have h1 : ActsAlone s s1 :=
    (ActsAlone.of_drops (dropsAlone_squash s true false) (sameDev_squash s true false)).trans
      ((ActsAlone.of_drops (dropsAlone_dropSealed _ false) (sameDev_dropSealed _ false)).trans
        (.of_drops (dropsAlone_squashPass _ false) (sameDev_squashPass _ false)))
  clear_value s1
  generalize hu : ({ modT s1 _ with engines := _, held := _ } : State) = u
  have hsu : ActsAlone s u := by
    subst hu
    exact ⟨h1.cur, h1.others, h1.resets⟩
  have hout : outstanding u = [] := by
    subst hu
    simp [outstanding, h1.cur]
  obtain ⟨hhalt, hrun⟩ := haltThread_alone u hout
  exact ⟨hsu.trans hhalt, hrun⟩

/-- The reset of one thread: it is HALTED, and every other is as it was. -/
theorem resetThread_halts (s : State) (tid : Nat) (hs : Rising s.threads) :
    Rising (resetThread s tid).threads ∧ (resetThread s tid).resets = s.resets ∧ (threadAt (resetThread s tid) tid).run = .halted ∧
    ∀ i, i ≠ tid → threadAt (resetThread s tid) i = threadAt s i := by
  rw [resetThread_eq]
  have hsw := rising_switchTo s tid hs
  obtain ⟨hact, hrun⟩ := resetOwn_alone (switchTo s tid)
  have hcur : (resetOwn (switchTo s tid)).cur = tid := hact.cur.trans (switchTo_cur s tid)
  have hth : Rising (resetOwn (switchTo s tid)).threads := by rw [hact.others]; exact hsw
  unfold onThread
  refine ⟨rising_switchTo _ _ hth, ?_, ?_, fun i hi => ?_⟩
  · exact (SameDev.switch _ _).resets.trans (hact.resets.trans (SameDev.switch s tid).resets)
  · rw [threadAt_switchTo _ _ _ hth]
    unfold threadAt
    rw [if_pos hcur.symm]
    exact hrun
  · rw [threadAt_switchTo _ _ _ hth, ← threadAt_switchTo s tid i hs]
    unfold threadAt
    rw [hcur, if_neg hi, switchTo_cur, if_neg hi, hact.others]

/-- The resets of some threads halt these, and leave the others HALTED that are. -/
theorem foldl_resetThread (l : List Nat) : ∀ s : State, Rising s.threads → (l.foldl resetThread s).resets = s.resets ∧
    ∀ i, i ∈ l ∨ (threadAt s i).run = .halted → (threadAt (l.foldl resetThread s) i).run = .halted := by
  induction l with
  | nil => exact fun s _ => ⟨rfl, fun i hi => hi.resolve_left List.not_mem_nil⟩
  | cons tid l ih =>
    intro s hs
    obtain ⟨hth, hres, hrun, hothers⟩ := resetThread_halts s tid hs
    obtain ⟨hres2, hrun2⟩ := ih (resetThread s tid) hth
    refine ⟨hres2.trans hres, fun i hi => hrun2 i ?_⟩
    by_cases hit : i = tid
    · subst hit
      exact .inr hrun
    · rcases hi with hi | hi
      · exact .inl ((List.mem_cons.mp hi).resolve_left hit)
      · exact .inr (by rw [hothers i hit]; exact hi)

/-! ### The reset of a virtual function: its units (R375) -/

/-- No thread and no group has changed, and what has left stays under way. -/
structure SendsAlone (s t : State) : Prop where
  threads : SameThreads s t
  groups : t.groups = s.groups
  outbound : s.outbound ⊆ t.outbound

namespace SendsAlone

/-- Nothing has been done. -/
theorem refl (s : State) : SendsAlone s s := ⟨.refl s, rfl, fun _ => id⟩

/-- One after the other. -/
theorem trans {s t u : State} (h : SendsAlone s t) (k : SendsAlone t u) : SendsAlone s u :=
  ⟨h.threads.trans k.threads, k.groups.trans h.groups, fun _ hm => k.outbound (h.outbound hm)⟩

/-- Over a list. -/
theorem foldl {α : Type} {f : State → α → State} (h : ∀ s x, SendsAlone s (f s x)) (l : List α) (s : State) :
    SendsAlone s (l.foldl f s) := by
  induction l generalizing s with
  | nil => exact .refl s
  | cons x l ih => exact (h s x).trans (ih _)

/-- What touches neither threads nor groups nor messages. -/
theorem of_same {s t : State} (h : SameThreads s t) (hg : t.groups = s.groups) (ho : t.outbound = s.outbound) : SendsAlone s t :=
  ⟨h, hg, ho ▸ fun _ => id⟩

/-- A message that leaves. -/
theorem sendOut (s : State) (m : Msg) : SendsAlone s (sendOut s m) := ⟨⟨rfl, rfl, rfl⟩, rfl, List.subset_append_left _ _⟩

end SendsAlone

/-- What waited at a queue is cancelled. -/
theorem sendsAlone_cancelRecord (s : State) (vf q tid : Nat) : SendsAlone s (cancelRecord s vf q tid) := by
  have hrec (a lo hi : Word) : SendsAlone s (sendRecord s a lo hi) := by
    refine .of_same (sameThreads_sendRecord s a lo hi) ?_ ?_
    all_goals
      unfold sendRecord
      dsimp only
      split <;> rfl
  unfold cancelRecord
  extract_lets e
  split
  · exact .of_same ⟨rfl, rfl, rfl⟩ rfl rfl
  · exact hrec _ _ _

/-- A queue of the VF is emptied. -/
theorem sendsAlone_resetQueue (vf : Nat) (s : State) (q : Nat) : SendsAlone s (resetQueue vf s q) := by
  have hdrop (u : State) (i : Nat) : SendsAlone u (dropEntry u i) := .of_same ⟨rfl, rfl, rfl⟩ rfl rfl
  unfold resetQueue
  extract_lets ps its s1 s2
  have h1 : SendsAlone s s1 := .of_same ⟨rfl, rfl, rfl⟩ rfl rfl
  have h2 : SendsAlone s s2 :=
    (h1.trans (.foldl (fun u p => sendsAlone_cancelRecord u vf q p.tid) ps s1)).trans
      (.foldl (fun u _ => sendsAlone_cancelRecord u vf q 0) its _)
  exact h2.trans (.foldl (fun u i => (hdrop u i).trans (.sendOut _ _)) _ s2)

/-- A collective of the VF ends. -/
theorem sendsAlone_resetColl (s : State) (i : Nat) : SendsAlone s (resetColl s i) := by
  have hfree (u : State) : SendsAlone u (freeColl u i) := .of_same ⟨rfl, rfl, rfl⟩ rfl rfl
  exact (SendsAlone.foldl (fun u m => .sendOut u _) _ s).trans (hfree _)

/-- The rest of a reset: no group of the VF is left, its notice has left, and no thread has changed. -/
theorem resetRest_frees (vf : Nat) (s : State) : SameThreads s (resetRest vf s) ∧ (∀ e ∈ (resetRest vf s).groups, e.2.owner ≠ vf) ∧
    Msg.resetNotice vf ∈ (resetRest vf s).outbound := by
  unfold resetRest
  extract_lets s2 s3 s4
  have h2 : SameThreads s s2 := ⟨rfl, rfl, rfl⟩
  have hnotice : Msg.resetNotice vf ∈ s2.outbound := List.mem_append_right _ (List.mem_singleton.mpr rfl)
  have h3 : SendsAlone s2 s3 := .foldl (sendsAlone_resetQueue vf) _ s2
  clear_value s3
  have h4 : SameThreads s3 s4 := ⟨rfl, rfl, rfl⟩
  have hgroups : ∀ e ∈ s4.groups, e.2.owner ≠ vf := fun e he => by
    obtain ⟨-, hout⟩ := List.mem_filter.mp he
    exact bne_iff_ne.mp hout
  have hnotice4 : Msg.resetNotice vf ∈ s4.outbound := h3.outbound hnotice
  clear_value s4
  have h5 := SendsAlone.foldl sendsAlone_resetColl
    ((List.range 256).filter fun i => fld (collDw s4 i 0) 63 1 == 1 && fld (collDw s4 i 0) 32 6 == vf) s4
  exact ⟨h2.trans (h3.threads.trans (h4.trans h5.threads)), fun e he => hgroups e (h5.groups ▸ he), h5.outbound hnotice4⟩

/-- A reset that is complete. -/
structure VfReset (s t : State) (vf : Nat) : Prop where
  /-- No group is left. -/
  groups : ∀ e ∈ t.groups, e.2.owner ≠ vf
  /-- The notice has left. -/
  notice : Msg.resetNotice vf ∈ t.outbound
  /-- Its threads are HALTED. -/
  halted : ∀ i ∈ liveTids s, (threadAt s i).run ≠ .halted → (threadAt s i).vfid = vf → (threadAt t i).run = .halted

/-- With no item of the VF unanswered, the reset acts in one step. -/
theorem resetVf_complete (s : State) (vf : Nat) (hs : Rising s.threads) (hout : itemsOut s vf = []) : VfReset s (resetVf s vf) vf := by
  obtain ⟨-, hrun⟩ := foldl_resetThread (threadsOf s vf) s hs
  obtain ⟨hsame, hgroups, hnotice⟩ := resetRest_frees vf ((threadsOf s vf).foldl resetThread s)
  have he : resetVf s vf = resetRest vf ((threadsOf s vf).foldl resetThread s) := by
    unfold resetVf
    exact if_pos (by rw [hout]; simp)
  rw [he]
  refine ⟨hgroups, hnotice, fun i hi hr hv => ?_⟩
  have hthread (u v : State) (h : SameThreads u v) : threadAt v i = threadAt u i := by
    unfold threadAt
    rw [h.cur, h.moves, h.others]
  rw [hthread _ _ hsame]
  exact hrun i (.inl (List.mem_filter.mpr ⟨hi, by simp [hr, hv]⟩))

/-- A register reads a value that is not its reset value, whatever the order of the list. -/
theorem devGet_devPut_set (s : State) (pa : Nat) (v : Word) (h : v ≠ wd ((devReg pa).map Prod.fst |>.getD 0)) :
    devGet (devPut s pa v) pa = v := by
  unfold devGet devPut spSet
  dsimp only
  rw [if_neg h, spGet_spPut, if_pos rfl]

/-- VFRESET shows the reset that waits first. -/
theorem showReset_first {u : State} {e : Nat × List Nat} {l : List (Nat × List Nat)} (h : u.resets = e :: l) (he : e.1 < 64) :
    fld (devGet (showReset u) 0x40000000028) 63 1 = 1 ∧ fld (devGet (showReset u) 0x40000000028) 0 6 = e.1 := by
  have hput : showReset u = devPut u 0x40000000028 (wd (2 ^ 63 + e.1)) := by
    unfold showReset
    rw [h]
    rfl
  have hset : wd (2 ^ 63 + e.1) ≠ wd ((devReg 0x40000000028).map Prod.fst |>.getD 0) := by
    intro hz
    have hzero : (wd (2 ^ 63 + e.1)).toNat = 0 := congrArg BitVec.toNat hz
    unfold wd at hzero
    rw [BitVec.toNat_ofNat] at hzero
    omega
  rw [hput, devGet_devPut_set _ _ _ hset, fld_wd _ _ _ (by omega), fld_wd _ _ _ (by omega)]
  omega

/-- With one that is, the reset waits, and VFRESET shows the one that waits first. -/
theorem resetVf_waits (s : State) (vf : Nat) (hq : quiet s) (hs : Rising s.threads) (hout : itemsOut s vf ≠ []) (hvf : vf < 64)
    (hres : ∀ e ∈ s.resets, e.1 < 64 ∧ e.1 ≠ vf) :
    (resetVf s vf).resets = s.resets ++ [(vf, itemsOut s vf)] ∧ fld (devGet (resetVf s vf) 0x40000000028) 63 1 = 1 ∧
    (s.resets = [] → fld (devGet (resetVf s vf) 0x40000000028) 0 6 = vf) := by
  obtain ⟨hsame, -⟩ := foldl_resetThread (threadsOf s vf) s hs
  have hany : (((threadsOf s vf).foldl resetThread s).resets.any fun e => e.1 == vf) = false := by
    rw [hsame, List.any_eq_false]
    exact fun e he => by simp [(hres e he).2]
  have he : resetVf s vf = showReset { (threadsOf s vf).foldl resetThread s with resets := s.resets ++ [(vf, itemsOut s vf)] } := by
    unfold resetVf
    extract_lets s1 out
    have ho : out = itemsOut s vf := if_neg (by rw [replaying_quiet s hq]; decide)
    rw [if_neg (by rw [ho]; simpa using hout), if_neg (by rw [hany]; decide), ho, hsame]
  rw [he]
  generalize (threadsOf s vf).foldl resetThread s = u
  refine ⟨by unfold showReset; split <;> rfl, ?_⟩
  cases hl : s.resets with
  | nil =>
    obtain ⟨hbusy, hfield⟩ := showReset_first (u := { u with resets := [(vf, itemsOut s vf)] }) rfl hvf
    exact ⟨hbusy, fun _ => hfield⟩
  | cons e l =>
    obtain ⟨hbusy, -⟩ := showReset_first (u := { u with resets := e :: (l ++ [(vf, itemsOut s vf)]) }) rfl
      (hres e (hl ▸ List.mem_cons_self)).1
    exact ⟨hbusy, fun h => absurd h (List.cons_ne_nil e l)⟩

end Sys2Proof.Proofs
end

section
/-! Registers act (O52). -/

set_option Elab.async false

namespace Sys2Proof.Proofs

open Sys2Proof Sys2Proof.Machine Sys2Proof.Laws

/-! ### The clauses of O52 -/

/-- DBHI. -/
theorem answers_doorbell {s : State} {vf q : Nat} (value : Word) (hq : quiet s) (hs : Rising s.dev) (hh : s.held = [])
    (hd : q = fld (devGet s (paVf vf 0x10)) 0 21) :
    let gives (v : Word) : Prop := Answers (.dbhi vf value) s fun t => devGet t (paVf vf 0x18) = v ∧ t.items = s.items
    (1024 ≤ q → gives 2) ∧
    (q < 1024 → (senderEntry s q 0 vf true = none → gives 2) ∧
      ∀ i, senderEntry s q 0 vf true = some i → (qKind s q = 0 → gives 3) ∧
        (qKind s q ≠ 0 → senderPlaces s i ≤ inUse s i → gives 1) ∧
        (qKind s q ≠ 0 → inUse s i < senderPlaces s i → Answers (.dbhi vf value) s fun t => devGet t (paVf vf 0x18) = 0 ∧
          qItems t q = qItems s q ++ [{ lo := devGet s (paVf vf 0), hi := value, place := some i }])) := by
  intro gives
  have hgives (st : Nat) (h : doorbell s vf value = rung s vf st) : gives (wd st) :=
    answers_dbhi _ hq hh h ⟨devGet_rung vf st hs rfl, rfl⟩
  refine ⟨fun h => hgives 2 (doorbell_foreign value hd h), fun h => ?_⟩
  have hlocal := doorbell_local value hd h
  refine ⟨fun hn => hgives 2 ?_, fun i hi => ⟨fun hk => hgives 3 ?_, fun hk hp => hgives 1 ?_, fun hk hp => ?_⟩⟩
  · rw [hlocal, hn]
    rfl
  · rw [hlocal, hi]
    exact if_pos hk
  · rw [hlocal, hi]
    exact (if_neg hk).trans (if_pos hp)
  · have hput : doorbell s vf value = rung (pushed s vf q i value) vf 0 := by
      rw [hlocal, hi]
      exact (if_neg hk).trans (if_neg (Nat.not_le.mpr hp))
    refine answers_dbhi _ hq hh hput ⟨devGet_rung (s := pushed s vf q i value) vf 0 hs rfl, ?_⟩
    exact (spGet_spPut _ _ _ _ _).trans (if_pos rfl)

/-- A request for pre-emption that is made. -/
theorem answers_request {s : State} {tid vf st pa : Nat} {byH : Bool} {i : Instr} (hq : quiet s) (hs : Rising s.dev) (ht : tid < 336)
    (hr : (threadAt s tid).run ≠ .halted) (hv : byH = true ∨ (threadAt s tid).vfid = vf) (hlo : 320 ≤ st) (hhi : st < 336)
    (he : exec i s = .next (noteRequest (requestPreemption s tid byH vf).1 pa st (!(requestPreemption s tid byH vf).2))) :
    Answers i s fun t => (if byH then (threadAt t tid).preH else (threadAt t tid).preS) = true ∧ fld (devGet t pa) (st - 320) 1 = 0 := by
  obtain ⟨u, hu, hdev, hpre⟩ := requestPreemption_pending hq ht hr hv
  rw [hu] at he
  refine ⟨_, he, ?_, fld_noteRequest u pa st false (hdev ▸ hs) hlo hhi⟩
  rw [threadAt_noteRequest]
  exact hpre

/-- One that is refused. -/
theorem answers_refused {s : State} {tid vf st pa : Nat} {byH : Bool} {i : Instr} (hs : Rising s.dev)
    (hr : (threadAt s tid).run = .halted ∨ (byH = false ∧ (threadAt s tid).vfid ≠ vf)) (hlo : 320 ≤ st) (hhi : st < 336)
    (he : exec i s = .next (noteRequest (requestPreemption s tid byH vf).1 pa st (!(requestPreemption s tid byH vf).2))) :
    Answers i s fun t => fld (devGet t pa) (st - 320) 1 = 1 ∧ { t with dev := s.dev } = s := by
  rw [requestPreemption_refused hr] at he
  exact ⟨_, he, fld_noteRequest s pa st true hs hlo hhi, noteRequest_rest s pa st true⟩

/-- FLIM. -/
theorem answers_flim {s : State} {core : Nat} (value : Word) (hq : quiet s) (hs : Rising s.dev) (hc : core < 160) :
    Answers (.flim core value) s fun t => let n := min 1800 (max 1000 (fld value 0 12)) / 25 * 25
      devGet t (0x40000001200 + 8 * core) = BitVec.ofNat 64 n ∧
      (targetOf s core ≤ n → { t with dev := s.dev } = s) ∧
      (n < (coreAt s core).fcur → n ≤ (coreAt s core).cap → stepWaits s core = false → (coreAt s core).waits = false →
        (coreAt s core).stepHeld = none → ∃ t0, (coreAt t core).relock = some (n, t0)) := by
  refine ⟨_, congrArg Host.Outcome.next (writeFlim_eq s core value hc), ?_⟩
  extract_lets n s1
  have hput : devGet s1 (0x40000001200 + 8 * core) = BitVec.ofNat 64 n := devGet_devPut_same s _ _ hs
  have hn : 1000 ≤ n ∧ n ≤ 1800 ∧ n % 25 = 0 := by
    simp only [n]
    omega
  have hflim : flimOf s1 core = n := by
    have hpa : paModule (0x1200 + 8 * core) = 0x40000001200 + 8 * core := by unfold paModule; omega
    unfold flimOf
    rw [hpa, hput]
    refine (fld_wd n 0 12 (by omega)).trans ?_
    rw [Nat.pow_zero, Nat.div_one, Nat.mod_eq_of_lt (by omega)]
  have hq1 : quiet s1 := hq
  have hrest : { s1 with dev := s.dev } = s := devPut_rest s _ _
  have hcore : coreAt s1 core = coreAt s core := rfl
  have hwaits : stepWaits s1 core = stepWaits s core := rfl
  clear_value s1 n
  split
  · next hlt =>
    have hkeep := sameDev_governorStep s1 core n 6 hq1
    refine ⟨(devGet_congr hkeep.dev _).trans hput, fun h => absurd hlt (by omega), fun hf hcap hw hr hh => ?_⟩
    exact relock_governorStep s1 core n hq1 hc hn.1 hn.2.2 hflim (hcore ▸ hf) (hcore ▸ hcap) (hwaits ▸ hw) (hcore ▸ hr) (hcore ▸ hh)
  · next hge =>
    refine ⟨hput, fun _ => hrest, fun hf hcap hw hr hh => absurd ?_ hge⟩
    have hrelock : (coreAt s core).relock = none := by
      cases h : (coreAt s core).relock with
      | none => rfl
      | some r => simp [stepWaits, h] at hw
    unfold targetOf
    simpa only [hh, hrelock] using hf

/-- A plain register. -/
theorem answers_registerWrite {s : State} {pa r m : Nat} (value : Word) (hs : Rising s.dev) (hr : devReg pa = some (r, m)) (hp : plainRange pa) :
    Answers (.registerWrite pa value) s fun t =>
      devGet t pa = (devGet s pa &&& ~~~(BitVec.ofNat 64 m)) ||| (value &&& BitVec.ofNat 64 m) ∧
      (∀ p, p ≠ pa → devGet t p = devGet s p) ∧ { t with dev := s.dev } = s := by
  refine ⟨_, exec_registerWrite_plain s pa value (isDevice_plainRange hp) (devEvent_plainRange _ value (.inl hp)), ?_⟩
  rw [writePlainReg_plainRange s value hp]
  exact devPlain_leaves s pa r m value hs hr

/-- A write of VFRESET (R375, R379). -/
theorem answers_vfreset {s : State} (value : Word) (hs : Rising s.dev) (ht : Rising s.threads) :
    (fld (devGet s 0x40000000028) 63 1 = 1 → Answers (.vfreset value) s fun t => t = s) ∧
    (fld (devGet s 0x40000000028) 63 1 = 0 → fld value 63 1 = 1 → itemsOut s (fld value 0 6) = [] →
      Answers (.vfreset value) s fun t => VfReset s t (fld value 0 6)) ∧
    (fld (devGet s 0x40000000028) 63 1 = 0 → fld value 63 1 = 0 → Answers (.vfreset value) s fun t =>
      devGet t 0x40000000028 = BitVec.ofNat 64 (fld value 0 6) ∧ { t with dev := s.dev } = s) := by
  have hpa : paModule 0x28 = 0x40000000028 := rfl
  have hidle (h : fld (devGet s 0x40000000028) 63 1 = 0) : writeVfreset s value =
      if fld value 63 1 = 0 then devPut s 0x40000000028 (wd (fld value 0 6))
      else resetVf (devPut s 0x40000000028 (wd (fld value 0 6))) (fld value 0 6) := by
    unfold writeVfreset
    rw [hpa, if_neg (by omega)]
  refine ⟨fun hb => ⟨_, congrArg Host.Outcome.next (if_pos hb), rfl⟩, fun hb hv hout => ?_, fun hb hv => ?_⟩
  · refine ⟨_, congrArg Host.Outcome.next ((hidle hb).trans (if_neg (by omega))), ?_⟩
    obtain ⟨hgroups, hnotice, hhalted⟩ := resetVf_complete (devPut s 0x40000000028 (wd (fld value 0 6))) (fld value 0 6) ht hout
    exact ⟨hgroups, hnotice, hhalted⟩
  · refine ⟨_, congrArg Host.Outcome.next ((hidle hb).trans (if_pos hv)), devGet_devPut_same s _ _ hs, devPut_rest s _ _⟩

/-- Settles O52, clause by clause: each write's own function, on device registers that every commit, clock and step leaves in order. -/
theorem registersAct : Obligations.RegistersAct := by
  unfold Obligations.RegistersAct
  intro s vf q tid st die core off value hq hsorted hheld
  have hs := hsorted.dev
  have ht := hsorted.threads
  refine ⟨fun hd _ => answers_doorbell value hq hs hheld hd, ?_, ?_, ?_, fun hc => answers_flim value hq hs hc, ?_, ?_, ?_, ?_⟩
  · intro done still busy
    have hdone {t : State} {v : Nat} (h : VfReset s t v) : done t v := ⟨h.groups, h.notice, fun i hi _ => h.halted i hi⟩
    obtain ⟨hbusy, hreset, hidle⟩ := answers_vfreset value hs ht
    refine ⟨fun h => ⟨_, rfl, hdone (resetVf_complete s vf ht h)⟩,
      fun h hvf hres => ⟨_, rfl, resetVf_waits s vf hq ht h hvf hres⟩, hbusy, ?_, hidle⟩
    intro hb hv hout
    obtain ⟨t, he, h⟩ := hreset hb hv hout
    exact ⟨t, he, hdone h⟩
  · intro htid hlt hlo hhi w
    subst htid
    refine ⟨fun hr => ⟨answers_request hq hs hlt hr (.inl rfl) hlo hhi rfl, fun hv _ hcl hch => ?_⟩, fun hr => ?_, fun hr _ hcl hch => ?_⟩
    · exact answers_request (byH := false) hq hs hlt hr (.inr hv) hcl hch rfl
    · exact answers_refused hs (.inl hr) hlo hhi rfl
    · exact answers_refused (byH := false) hs (hr.imp_right fun h => ⟨rfl, h⟩) hcl hch rfl
  · intro hd
    refine ⟨fun hv => ⟨_, congrArg Host.Outcome.next (if_pos (.inl hv)), rfl⟩,
      fun hv => ⟨_, rfl, writeSramsize_leaves s die value hs hd hv⟩⟩
  · intro v ho
    exact ⟨fun he => ⟨_, congrArg Host.Outcome.next (if_pos (.inr he)), rfl⟩, fun hn => ⟨_, rfl, writeOwner_leaves s off v hs ho hn⟩⟩
  · exact fun pa r m hr hp => answers_registerWrite value hs hr hp
  · obtain ⟨t, he, hv, -, hrest⟩ := answers_registerWrite (pa := 0x40000001000) (r := 2400) (m := 65535) value hs rfl (.inl (by omega))
    exact ⟨t, he, hv, hrest⟩
  · intro hv
    have hmode : fld value 0 2 = 3 := by
      rw [fld_low]
      exact hv
    refine ⟨_, exec_registerWrite_plain s _ value (by decide) (devEvent_plainRange _ value (.inr rfl)), ?_⟩
    unfold writePlainReg
    dsimp only
    rw [if_neg (by omega), if_neg (by omega), if_pos ⟨rfl, hmode⟩]

end Sys2Proof.Proofs
end
